-- ==== Sys2Proof/Word.lean ====
section
/-! DEFINITION. The word types of the machine and the parameter XLEN (spec/00_scope.md R8, R10). -/

namespace Sys2Proof

/-- A byte of memory (20_memory.md R80). -/
abbrev Byte := BitVec 8

/-- The field that holds an XLEN-bit quantity. With XLEN = 32 its upper 32 bits are zero (assumption log 1). -/
abbrev Word := BitVec 64

/-- A 32-bit instruction word (30_encoding.md R110). -/
abbrev InstrWord := BitVec 32

/-- A register number, 0 to 31 (00_scope.md R12). -/
abbrev RegNum := BitVec 5

/-- The parameter XLEN: RV32I or RV64I, fixed for the life of the machine (00_scope.md R8, D2). -/
inductive Xlen where
  | rv32
  | rv64
deriving DecidableEq, Repr, Inhabited

/-- The number of bits XLEN stands for. -/
def Xlen.bits : Xlen → Nat
  | .rv32 => 32
  | .rv64 => 64

end Sys2Proof
end

