-- ==== Sys2Proof/Syntax.lean ====
section
/-! DEFINITION. The instructions: one constructor per mnemonic of spec/opcode_table.json (30_encoding.md R120), and the
software names of the registers (10_state.md R21). -/

namespace Sys2Proof

/-- The instructions of the machine, in the order of the opcode table. Offsets of branches and JAL are the byte
offsets of 30_encoding.md R113 (bit 0 always 0). FENCE and FENCE.I keep the fields the decoder ignores (R126), so
that each word stands for one term (assumption log 21). -/
inductive Instr where
  /-- `SLL rd,rs1,rs2` (R140). -/
  | sll (rd rs1 rs2 : RegNum)
  /-- `SLLI rd,rs1,shamt` (R141). -/
  | slli (rd rs1 : RegNum) (shamt : BitVec 6)
  /-- `SRL rd,rs1,rs2` (R142). -/
  | srl (rd rs1 rs2 : RegNum)
  /-- `SRLI rd,rs1,shamt` (R143). -/
  | srli (rd rs1 : RegNum) (shamt : BitVec 6)
  /-- `SRA rd,rs1,rs2` (R144). -/
  | sra (rd rs1 rs2 : RegNum)
  /-- `SRAI rd,rs1,shamt` (R145). -/
  | srai (rd rs1 : RegNum) (shamt : BitVec 6)
  /-- `SLLW rd,rs1,rs2` (R146). -/
  | sllw (rd rs1 rs2 : RegNum)
  /-- `SLLIW rd,rs1,shamt` (R147). -/
  | slliw (rd rs1 : RegNum) (shamt : BitVec 5)
  /-- `SRLW rd,rs1,rs2` (R148). -/
  | srlw (rd rs1 rs2 : RegNum)
  /-- `SRLIW rd,rs1,shamt` (R149). -/
  | srliw (rd rs1 : RegNum) (shamt : BitVec 5)
  /-- `SRAW rd,rs1,rs2` (R150). -/
  | sraw (rd rs1 rs2 : RegNum)
  /-- `SRAIW rd,rs1,shamt` (R151). -/
  | sraiw (rd rs1 : RegNum) (shamt : BitVec 5)
  /-- `ADD rd,rs1,rs2` (R160). -/
  | add (rd rs1 rs2 : RegNum)
  /-- `ADDI rd,rs1,imm` (R161). -/
  | addi (rd rs1 : RegNum) (imm : BitVec 12)
  /-- `SUB rd,rs1,rs2` (R162). -/
  | sub (rd rs1 rs2 : RegNum)
  /-- `LUI rd,imm` (R163). -/
  | lui (rd : RegNum) (imm : BitVec 20)
  /-- `AUIPC rd,imm` (R164). -/
  | auipc (rd : RegNum) (imm : BitVec 20)
  /-- `ADDW rd,rs1,rs2` (R165). -/
  | addw (rd rs1 rs2 : RegNum)
  /-- `ADDIW rd,rs1,imm` (R166). -/
  | addiw (rd rs1 : RegNum) (imm : BitVec 12)
  /-- `SUBW rd,rs1,rs2` (R167). -/
  | subw (rd rs1 rs2 : RegNum)
  /-- `XOR rd,rs1,rs2` (R170). -/
  | xor (rd rs1 rs2 : RegNum)
  /-- `XORI rd,rs1,imm` (R171). -/
  | xori (rd rs1 : RegNum) (imm : BitVec 12)
  /-- `OR rd,rs1,rs2` (R172). -/
  | or (rd rs1 rs2 : RegNum)
  /-- `ORI rd,rs1,imm` (R173). -/
  | ori (rd rs1 : RegNum) (imm : BitVec 12)
  /-- `AND rd,rs1,rs2` (R174). -/
  | and (rd rs1 rs2 : RegNum)
  /-- `ANDI rd,rs1,imm` (R175). -/
  | andi (rd rs1 : RegNum) (imm : BitVec 12)
  /-- `SLT rd,rs1,rs2` (R176). -/
  | slt (rd rs1 rs2 : RegNum)
  /-- `SLTI rd,rs1,imm` (R177). -/
  | slti (rd rs1 : RegNum) (imm : BitVec 12)
  /-- `SLTU rd,rs1,rs2` (R178). -/
  | sltu (rd rs1 rs2 : RegNum)
  /-- `SLTIU rd,rs1,imm` (R179). -/
  | sltiu (rd rs1 : RegNum) (imm : BitVec 12)
  /-- `BEQ rs1,rs2,imm` (R181). -/
  | beq (rs1 rs2 : RegNum) (off : BitVec 13)
  /-- `BNE rs1,rs2,imm` (R182). -/
  | bne (rs1 rs2 : RegNum) (off : BitVec 13)
  /-- `BLT rs1,rs2,imm` (R183). -/
  | blt (rs1 rs2 : RegNum) (off : BitVec 13)
  /-- `BGE rs1,rs2,imm` (R184). -/
  | bge (rs1 rs2 : RegNum) (off : BitVec 13)
  /-- `BLTU rs1,rs2,imm` (R185). -/
  | bltu (rs1 rs2 : RegNum) (off : BitVec 13)
  /-- `BGEU rs1,rs2,imm` (R186). -/
  | bgeu (rs1 rs2 : RegNum) (off : BitVec 13)
  /-- `JAL rd,imm` (R187). -/
  | jal (rd : RegNum) (off : BitVec 21)
  /-- `JALR rd,rs1,imm` (R188). -/
  | jalr (rd rs1 : RegNum) (imm : BitVec 12)
  /-- `FENCE  (card lists no operands; general-knowledge syntax: FENCE pred,succ)` (R190). -/
  | fence (fm pred succ : BitVec 4) (rs1 rd : RegNum)
  /-- `FENCE.I` (R191). -/
  | fenceI (imm : BitVec 12) (rs1 rd : RegNum)
  /-- `ECALL` (R192). -/
  | ecall
  /-- `EBREAK` (R193). -/
  | ebreak
  /-- `CSRRW rd,csr,rs1` (R201). -/
  | csrrw (rd : RegNum) (csr : BitVec 12) (rs1 : RegNum)
  /-- `CSRRS rd,csr,rs1` (R202). -/
  | csrrs (rd : RegNum) (csr : BitVec 12) (rs1 : RegNum)
  /-- `CSRRC rd,csr,rs1` (R203). -/
  | csrrc (rd : RegNum) (csr : BitVec 12) (rs1 : RegNum)
  /-- `CSRRWI rd,csr,uimm` (R204). -/
  | csrrwi (rd : RegNum) (csr : BitVec 12) (uimm : BitVec 5)
  /-- `CSRRSI rd,csr,uimm` (R205). -/
  | csrrsi (rd : RegNum) (csr : BitVec 12) (uimm : BitVec 5)
  /-- `CSRRCI rd,csr,uimm` (R206). -/
  | csrrci (rd : RegNum) (csr : BitVec 12) (uimm : BitVec 5)
  /-- `LB rd,rs1,imm` (R211). -/
  | lb (rd rs1 : RegNum) (imm : BitVec 12)
  /-- `LH rd,rs1,imm` (R212). -/
  | lh (rd rs1 : RegNum) (imm : BitVec 12)
  /-- `LW rd,rs1,imm` (R213). -/
  | lw (rd rs1 : RegNum) (imm : BitVec 12)
  /-- `LBU rd,rs1,imm` (R214). -/
  | lbu (rd rs1 : RegNum) (imm : BitVec 12)
  /-- `LHU rd,rs1,imm` (R215). -/
  | lhu (rd rs1 : RegNum) (imm : BitVec 12)
  /-- `LWU rd,rs1,imm` (R216). -/
  | lwu (rd rs1 : RegNum) (imm : BitVec 12)
  /-- `LD rd,rs1,imm` (R217). -/
  | ld (rd rs1 : RegNum) (imm : BitVec 12)
  /-- `SB rs1,rs2,imm` (R218). -/
  | sb (rs1 rs2 : RegNum) (imm : BitVec 12)
  /-- `SH rs1,rs2,imm` (R219). -/
  | sh (rs1 rs2 : RegNum) (imm : BitVec 12)
  /-- `SW rs1,rs2,imm` (R220). -/
  | sw (rs1 rs2 : RegNum) (imm : BitVec 12)
  /-- `SD rs1,rs2,imm` (R221). -/
  | sd (rs1 rs2 : RegNum) (imm : BitVec 12)
  /-- `MRET` (R230). -/
  | mret
  /-- `SRET` (R231). -/
  | sret
  /-- `WFI` (R232). -/
  | wfi
  /-- `SFENCE.VMA rs1,rs2` (R233). -/
  | sfenceVma (rs1 rs2 : RegNum)
deriving DecidableEq, Repr, Inhabited

/-- Who must preserve a register across a call (10_state.md R21, 48_pseudo_and_calling_convention.md R246); the
hardware enforces nothing of it. -/
inductive Saver where
  | caller
  | callee
  | nobody
deriving DecidableEq, Repr

/-- The assembler's name of a register and its saver (10_state.md R21). -/
def abiRow : List (String × Saver) :=
  [("zero", .nobody), ("ra", .caller), ("sp", .callee), ("gp", .nobody), ("tp", .nobody),
   ("t0", .caller), ("t1", .caller), ("t2", .caller), ("s0", .callee), ("s1", .callee),
   ("a0", .caller), ("a1", .caller), ("a2", .caller), ("a3", .caller), ("a4", .caller),
   ("a5", .caller), ("a6", .caller), ("a7", .caller)] ++
  [("s2", .callee), ("s3", .callee), ("s4", .callee), ("s5", .callee), ("s6", .callee),
   ("s7", .callee), ("s8", .callee), ("s9", .callee), ("s10", .callee), ("s11", .callee),
   ("t3", .caller), ("t4", .caller), ("t5", .caller), ("t6", .caller)]

/-- The ABI name of register `r` (10_state.md R21). -/
def abiName (r : RegNum) : String := (abiRow.getD r.toNat ("", .nobody)).1

end Sys2Proof
end

