-- ==== Sys2Proof/WellFormed.lean ====
section
/-! DEFINITION. Which terms of `Instr` stand for an instruction word of a machine of the given XLEN. -/

namespace Sys2Proof

/-- The 12 instructions RV64I adds, valid only when XLEN = 64 (00_scope.md R3 item 2). -/
def Instr.rv64Only : Instr → Bool
  | .sll _ _ _ => false
  | .slli _ _ _ => false
  | .srl _ _ _ => false
  | .srli _ _ _ => false
  | .sra _ _ _ => false
  | .srai _ _ _ => false
  | .sllw _ _ _ => true
  | .slliw _ _ _ => true
  | .srlw _ _ _ => true
  | .srliw _ _ _ => true
  | .sraw _ _ _ => true
  | .sraiw _ _ _ => true
  | .add _ _ _ => false
  | .addi _ _ _ => false
  | .sub _ _ _ => false
  | .lui _ _ => false
  | .auipc _ _ => false
  | .addw _ _ _ => true
  | .addiw _ _ _ => true
  | .subw _ _ _ => true
  | .xor _ _ _ => false
  | .xori _ _ _ => false
  | .or _ _ _ => false
  | .ori _ _ _ => false
  | .and _ _ _ => false
  | .andi _ _ _ => false
  | .slt _ _ _ => false
  | .slti _ _ _ => false
  | .sltu _ _ _ => false
  | .sltiu _ _ _ => false
  | .beq _ _ _ => false
  | .bne _ _ _ => false
  | .blt _ _ _ => false
  | .bge _ _ _ => false
  | .bltu _ _ _ => false
  | .bgeu _ _ _ => false
  | .jal _ _ => false
  | .jalr _ _ _ => false
  | .fence _ _ _ _ _ => false
  | .fenceI _ _ _ => false
  | .ecall => false
  | .ebreak => false
  | .csrrw _ _ _ => false
  | .csrrs _ _ _ => false
  | .csrrc _ _ _ => false
  | .csrrwi _ _ _ => false
  | .csrrsi _ _ _ => false
  | .csrrci _ _ _ => false
  | .lb _ _ _ => false
  | .lh _ _ _ => false
  | .lw _ _ _ => false
  | .lbu _ _ _ => false
  | .lhu _ _ _ => false
  | .lwu _ _ _ => true
  | .ld _ _ _ => true
  | .sb _ _ _ => false
  | .sh _ _ _ => false
  | .sw _ _ _ => false
  | .sd _ _ _ => true
  | .mret => false
  | .sret => false
  | .wfi => false
  | .sfenceVma _ _ => false

/-- The shift amount fits: 5 bits on RV32, 6 bits on RV64 (30_encoding.md R114, 40_shifts.md R141). -/
def shamtOk (xl : Xlen) (shamt : BitVec 6) : Bool :=
  xl == .rv64 || !shamt.getLsbD 5

/-- A term is well-formed when some word encodes it: the instruction exists for this XLEN, the shift amount fits,
the offset of a branch or of JAL is even (30_encoding.md R113, R120). -/
def Instr.wellFormed (xl : Xlen) : Instr → Bool
  | .sll _ _ _ => true
  | .slli _ _ shamt => shamtOk xl shamt
  | .srl _ _ _ => true
  | .srli _ _ shamt => shamtOk xl shamt
  | .sra _ _ _ => true
  | .srai _ _ shamt => shamtOk xl shamt
  | .sllw _ _ _ => xl == .rv64
  | .slliw _ _ _ => xl == .rv64
  | .srlw _ _ _ => xl == .rv64
  | .srliw _ _ _ => xl == .rv64
  | .sraw _ _ _ => xl == .rv64
  | .sraiw _ _ _ => xl == .rv64
  | .add _ _ _ => true
  | .addi _ _ _ => true
  | .sub _ _ _ => true
  | .lui _ _ => true
  | .auipc _ _ => true
  | .addw _ _ _ => xl == .rv64
  | .addiw _ _ _ => xl == .rv64
  | .subw _ _ _ => xl == .rv64
  | .xor _ _ _ => true
  | .xori _ _ _ => true
  | .or _ _ _ => true
  | .ori _ _ _ => true
  | .and _ _ _ => true
  | .andi _ _ _ => true
  | .slt _ _ _ => true
  | .slti _ _ _ => true
  | .sltu _ _ _ => true
  | .sltiu _ _ _ => true
  | .beq _ _ off => !off.getLsbD 0
  | .bne _ _ off => !off.getLsbD 0
  | .blt _ _ off => !off.getLsbD 0
  | .bge _ _ off => !off.getLsbD 0
  | .bltu _ _ off => !off.getLsbD 0
  | .bgeu _ _ off => !off.getLsbD 0
  | .jal _ off => !off.getLsbD 0
  | .jalr _ _ _ => true
  | .fence _ _ _ _ _ => true
  | .fenceI _ _ _ => true
  | .ecall => true
  | .ebreak => true
  | .csrrw _ _ _ => true
  | .csrrs _ _ _ => true
  | .csrrc _ _ _ => true
  | .csrrwi _ _ _ => true
  | .csrrsi _ _ _ => true
  | .csrrci _ _ _ => true
  | .lb _ _ _ => true
  | .lh _ _ _ => true
  | .lw _ _ _ => true
  | .lbu _ _ _ => true
  | .lhu _ _ _ => true
  | .lwu _ _ _ => xl == .rv64
  | .ld _ _ _ => xl == .rv64
  | .sb _ _ _ => true
  | .sh _ _ _ => true
  | .sw _ _ _ => true
  | .sd _ _ _ => xl == .rv64
  | .mret => true
  | .sret => true
  | .wfi => true
  | .sfenceVma _ _ => true

end Sys2Proof
end

