-- ==== Sys2Proof/Decode.lean ====
section
/-! DEFINITION. The decoder, total on every word and every list of bytes, and the encoder, both written from
spec/opcode_table.json and 30_encoding.md R111-R121. -/

namespace Sys2Proof

/-- Why a word is not an instruction of this machine. Each case raises IllegalInstruction (30_encoding.md R125); the
names tell the cases apart for a reader only (assumption log 24). -/
inductive Reject where
  /-- Fewer than four bytes were given. -/
  | truncated
  /-- Bits [1:0] are not 11: a 16-bit-length encoding (R110). -/
  | compressed
  /-- Bits [4:0] are 11111: the start of a longer encoding (R110). -/
  | longEncoding
  /-- A row of the table that exists only when XLEN = 64 (R125). -/
  | rv64Only
  /-- No row of the table for any XLEN (R125). -/
  | noRow
deriving DecidableEq, Repr

/-! ## Fields of a word (30_encoding.md R111) -/

/-- `rd`, bits 11:7. -/
def rdOf (w : InstrWord) : RegNum := w.extractLsb' 7 5

/-- `rs1`, bits 19:15; the field that also holds `uimm` (R114). -/
def rs1Of (w : InstrWord) : RegNum := w.extractLsb' 15 5

/-- `rs2`, bits 24:20; the field that also holds a 5-bit `shamt` (R114). -/
def rs2Of (w : InstrWord) : RegNum := w.extractLsb' 20 5

/-- `shamt[5:0]`, bits 25:20 (R114); on RV32 the row's mask makes bit 25 zero. -/
def shamt6 (w : InstrWord) : BitVec 6 := w.extractLsb' 20 6

/-- The I-immediate, bits 31:20; the field that also holds `csr` (R113, R114). -/
def immI (w : InstrWord) : BitVec 12 := w.extractLsb' 20 12

/-- The S-immediate, bits 31:25 and 11:7 (R113). -/
def immS (w : InstrWord) : BitVec 12 := w.extractLsb' 25 7 ++ w.extractLsb' 7 5

/-- The B offset, with its implicit bit 0 (R113). -/
def offB (w : InstrWord) : BitVec 13 :=
  w.extractLsb' 31 1 ++ w.extractLsb' 7 1 ++ w.extractLsb' 25 6 ++ w.extractLsb' 8 4 ++ 0#1

/-- The U field, bits 31:12 (R113). -/
def immU (w : InstrWord) : BitVec 20 := w.extractLsb' 12 20

/-- The J offset, with its implicit bit 0 (R113). -/
def offJ (w : InstrWord) : BitVec 21 :=
  w.extractLsb' 31 1 ++ w.extractLsb' 12 8 ++ w.extractLsb' 20 1 ++ w.extractLsb' 21 10 ++ 0#1

/-- `fm` of FENCE, bits 31:28 (R114). -/
def fmOf (w : InstrWord) : BitVec 4 := w.extractLsb' 28 4

/-- `pred` of FENCE, bits 27:24 (R114). -/
def predOf (w : InstrWord) : BitVec 4 := w.extractLsb' 24 4

/-- `succ` of FENCE, bits 23:20 (R114). -/
def succOf (w : InstrWord) : BitVec 4 := w.extractLsb' 20 4

/-! ## The opcode table (30_encoding.md R120) -/

/-- One row of spec/opcode_table.json. -/
structure Row where
  mnemonic : String
  /-- The card's operand form (30_encoding.md R130). -/
  form : String
  pattern : InstrWord
  mask : InstrWord
  on32 : Bool
  on64 : Bool
  build : InstrWord → Instr

/-- The row is valid for this XLEN (R120). -/
def Row.valid (r : Row) (xl : Xlen) : Bool :=
  match xl with
  | .rv32 => r.on32
  | .rv64 => r.on64

/-- A word decodes to a row iff the row is valid for XLEN and the masked word is the pattern (R120). -/
def Row.hits (r : Row) (xl : Xlen) (w : InstrWord) : Bool :=
  r.valid xl && (w &&& r.mask == r.pattern)

/-- Shifts (40_shifts.md R140-R151). -/
def shiftRows : List Row :=
  [⟨"SLL", "SLL rd,rs1,rs2", 0x00001033, 0xFE00707F, true, true, fun w => .sll (rdOf w) (rs1Of w) (rs2Of w)⟩,
   ⟨"SLLI", "SLLI rd,rs1,shamt", 0x00001013, 0xFE00707F, true, false, fun w => .slli (rdOf w) (rs1Of w) (shamt6 w)⟩,
   ⟨"SLLI", "SLLI rd,rs1,shamt", 0x00001013, 0xFC00707F, false, true, fun w => .slli (rdOf w) (rs1Of w) (shamt6 w)⟩,
   ⟨"SRL", "SRL rd,rs1,rs2", 0x00005033, 0xFE00707F, true, true, fun w => .srl (rdOf w) (rs1Of w) (rs2Of w)⟩,
   ⟨"SRLI", "SRLI rd,rs1,shamt", 0x00005013, 0xFE00707F, true, false, fun w => .srli (rdOf w) (rs1Of w) (shamt6 w)⟩,
   ⟨"SRLI", "SRLI rd,rs1,shamt", 0x00005013, 0xFC00707F, false, true, fun w => .srli (rdOf w) (rs1Of w) (shamt6 w)⟩,
   ⟨"SRA", "SRA rd,rs1,rs2", 0x40005033, 0xFE00707F, true, true, fun w => .sra (rdOf w) (rs1Of w) (rs2Of w)⟩,
   ⟨"SRAI", "SRAI rd,rs1,shamt", 0x40005013, 0xFE00707F, true, false, fun w => .srai (rdOf w) (rs1Of w) (shamt6 w)⟩,
   ⟨"SRAI", "SRAI rd,rs1,shamt", 0x40005013, 0xFC00707F, false, true, fun w => .srai (rdOf w) (rs1Of w) (shamt6 w)⟩,
   ⟨"SLLW", "SLLW rd,rs1,rs2", 0x0000103B, 0xFE00707F, false, true, fun w => .sllw (rdOf w) (rs1Of w) (rs2Of w)⟩,
   ⟨"SLLIW", "SLLIW rd,rs1,shamt", 0x0000101B, 0xFE00707F, false, true, fun w => .slliw (rdOf w) (rs1Of w) (rs2Of w)⟩,
   ⟨"SRLW", "SRLW rd,rs1,rs2", 0x0000503B, 0xFE00707F, false, true, fun w => .srlw (rdOf w) (rs1Of w) (rs2Of w)⟩,
   ⟨"SRLIW", "SRLIW rd,rs1,shamt", 0x0000501B, 0xFE00707F, false, true, fun w => .srliw (rdOf w) (rs1Of w) (rs2Of w)⟩,
   ⟨"SRAW", "SRAW rd,rs1,rs2", 0x4000503B, 0xFE00707F, false, true, fun w => .sraw (rdOf w) (rs1Of w) (rs2Of w)⟩,
   ⟨"SRAIW", "SRAIW rd,rs1,shamt", 0x4000501B, 0xFE00707F, false, true, fun w => .sraiw (rdOf w) (rs1Of w) (rs2Of w)⟩]

/-- Arithmetic (41_arithmetic.md R160-R167). -/
def arithRows : List Row :=
  [⟨"ADD", "ADD rd,rs1,rs2", 0x00000033, 0xFE00707F, true, true, fun w => .add (rdOf w) (rs1Of w) (rs2Of w)⟩,
   ⟨"ADDI", "ADDI rd,rs1,imm", 0x00000013, 0x0000707F, true, true, fun w => .addi (rdOf w) (rs1Of w) (immI w)⟩,
   ⟨"SUB", "SUB rd,rs1,rs2", 0x40000033, 0xFE00707F, true, true, fun w => .sub (rdOf w) (rs1Of w) (rs2Of w)⟩,
   ⟨"LUI", "LUI rd,imm", 0x00000037, 0x0000007F, true, true, fun w => .lui (rdOf w) (immU w)⟩,
   ⟨"AUIPC", "AUIPC rd,imm", 0x00000017, 0x0000007F, true, true, fun w => .auipc (rdOf w) (immU w)⟩,
   ⟨"ADDW", "ADDW rd,rs1,rs2", 0x0000003B, 0xFE00707F, false, true, fun w => .addw (rdOf w) (rs1Of w) (rs2Of w)⟩,
   ⟨"ADDIW", "ADDIW rd,rs1,imm", 0x0000001B, 0x0000707F, false, true, fun w => .addiw (rdOf w) (rs1Of w) (immI w)⟩,
   ⟨"SUBW", "SUBW rd,rs1,rs2", 0x4000003B, 0xFE00707F, false, true, fun w => .subw (rdOf w) (rs1Of w) (rs2Of w)⟩]

/-- Logical and compare (42_logical_compare.md R170-R179). -/
def logicRows : List Row :=
  [⟨"XOR", "XOR rd,rs1,rs2", 0x00004033, 0xFE00707F, true, true, fun w => .xor (rdOf w) (rs1Of w) (rs2Of w)⟩,
   ⟨"XORI", "XORI rd,rs1,imm", 0x00004013, 0x0000707F, true, true, fun w => .xori (rdOf w) (rs1Of w) (immI w)⟩,
   ⟨"OR", "OR rd,rs1,rs2", 0x00006033, 0xFE00707F, true, true, fun w => .or (rdOf w) (rs1Of w) (rs2Of w)⟩,
   ⟨"ORI", "ORI rd,rs1,imm", 0x00006013, 0x0000707F, true, true, fun w => .ori (rdOf w) (rs1Of w) (immI w)⟩,
   ⟨"AND", "AND rd,rs1,rs2", 0x00007033, 0xFE00707F, true, true, fun w => .and (rdOf w) (rs1Of w) (rs2Of w)⟩,
   ⟨"ANDI", "ANDI rd,rs1,imm", 0x00007013, 0x0000707F, true, true, fun w => .andi (rdOf w) (rs1Of w) (immI w)⟩,
   ⟨"SLT", "SLT rd,rs1,rs2", 0x00002033, 0xFE00707F, true, true, fun w => .slt (rdOf w) (rs1Of w) (rs2Of w)⟩,
   ⟨"SLTI", "SLTI rd,rs1,imm", 0x00002013, 0x0000707F, true, true, fun w => .slti (rdOf w) (rs1Of w) (immI w)⟩,
   ⟨"SLTU", "SLTU rd,rs1,rs2", 0x00003033, 0xFE00707F, true, true, fun w => .sltu (rdOf w) (rs1Of w) (rs2Of w)⟩,
   ⟨"SLTIU", "SLTIU rd,rs1,imm", 0x00003013, 0x0000707F, true, true, fun w => .sltiu (rdOf w) (rs1Of w) (immI w)⟩]

/-- Branches and jumps (43_branches_jumps.md R181-R188). -/
def branchRows : List Row :=
  [⟨"BEQ", "BEQ rs1,rs2,imm", 0x00000063, 0x0000707F, true, true, fun w => .beq (rs1Of w) (rs2Of w) (offB w)⟩,
   ⟨"BNE", "BNE rs1,rs2,imm", 0x00001063, 0x0000707F, true, true, fun w => .bne (rs1Of w) (rs2Of w) (offB w)⟩,
   ⟨"BLT", "BLT rs1,rs2,imm", 0x00004063, 0x0000707F, true, true, fun w => .blt (rs1Of w) (rs2Of w) (offB w)⟩,
   ⟨"BGE", "BGE rs1,rs2,imm", 0x00005063, 0x0000707F, true, true, fun w => .bge (rs1Of w) (rs2Of w) (offB w)⟩,
   ⟨"BLTU", "BLTU rs1,rs2,imm", 0x00006063, 0x0000707F, true, true, fun w => .bltu (rs1Of w) (rs2Of w) (offB w)⟩,
   ⟨"BGEU", "BGEU rs1,rs2,imm", 0x00007063, 0x0000707F, true, true, fun w => .bgeu (rs1Of w) (rs2Of w) (offB w)⟩,
   ⟨"JAL", "JAL rd,imm", 0x0000006F, 0x0000007F, true, true, fun w => .jal (rdOf w) (offJ w)⟩,
   ⟨"JALR", "JALR rd,rs1,imm", 0x00000067, 0x0000707F, true, true, fun w => .jalr (rdOf w) (rs1Of w) (immI w)⟩]

/-- Synchronisation and environment (44_synch_environment.md R190-R193). -/
def synchRows : List Row :=
  [⟨"FENCE", "FENCE  (card lists no operands; general-knowledge syntax: FENCE pred,succ)", 0x0000000F, 0x0000707F, true, true, fun w => .fence (fmOf w) (predOf w) (succOf w) (rs1Of w) (rdOf w)⟩,
   ⟨"FENCE.I", "FENCE.I", 0x0000100F, 0x0000707F, true, true, fun w => .fenceI (immI w) (rs1Of w) (rdOf w)⟩,
   ⟨"ECALL", "ECALL", 0x00000073, 0xFFFFFFFF, true, true, fun _ => .ecall⟩,
   ⟨"EBREAK", "EBREAK", 0x00100073, 0xFFFFFFFF, true, true, fun _ => .ebreak⟩]

/-- CSR instructions (45_csr.md R201-R206). -/
def csrRows : List Row :=
  [⟨"CSRRW", "CSRRW rd,csr,rs1", 0x00001073, 0x0000707F, true, true, fun w => .csrrw (rdOf w) (immI w) (rs1Of w)⟩,
   ⟨"CSRRS", "CSRRS rd,csr,rs1", 0x00002073, 0x0000707F, true, true, fun w => .csrrs (rdOf w) (immI w) (rs1Of w)⟩,
   ⟨"CSRRC", "CSRRC rd,csr,rs1", 0x00003073, 0x0000707F, true, true, fun w => .csrrc (rdOf w) (immI w) (rs1Of w)⟩,
   ⟨"CSRRWI", "CSRRWI rd,csr,uimm", 0x00005073, 0x0000707F, true, true, fun w => .csrrwi (rdOf w) (immI w) (rs1Of w)⟩,
   ⟨"CSRRSI", "CSRRSI rd,csr,uimm", 0x00006073, 0x0000707F, true, true, fun w => .csrrsi (rdOf w) (immI w) (rs1Of w)⟩,
   ⟨"CSRRCI", "CSRRCI rd,csr,uimm", 0x00007073, 0x0000707F, true, true, fun w => .csrrci (rdOf w) (immI w) (rs1Of w)⟩]

/-- Loads and stores (46_loads_stores.md R211-R221). -/
def memRows : List Row :=
  [⟨"LB", "LB rd,rs1,imm", 0x00000003, 0x0000707F, true, true, fun w => .lb (rdOf w) (rs1Of w) (immI w)⟩,
   ⟨"LH", "LH rd,rs1,imm", 0x00001003, 0x0000707F, true, true, fun w => .lh (rdOf w) (rs1Of w) (immI w)⟩,
   ⟨"LW", "LW rd,rs1,imm", 0x00002003, 0x0000707F, true, true, fun w => .lw (rdOf w) (rs1Of w) (immI w)⟩,
   ⟨"LBU", "LBU rd,rs1,imm", 0x00004003, 0x0000707F, true, true, fun w => .lbu (rdOf w) (rs1Of w) (immI w)⟩,
   ⟨"LHU", "LHU rd,rs1,imm", 0x00005003, 0x0000707F, true, true, fun w => .lhu (rdOf w) (rs1Of w) (immI w)⟩,
   ⟨"LWU", "LWU rd,rs1,imm", 0x00006003, 0x0000707F, false, true, fun w => .lwu (rdOf w) (rs1Of w) (immI w)⟩,
   ⟨"LD", "LD rd,rs1,imm", 0x00003003, 0x0000707F, false, true, fun w => .ld (rdOf w) (rs1Of w) (immI w)⟩,
   ⟨"SB", "SB rs1,rs2,imm", 0x00000023, 0x0000707F, true, true, fun w => .sb (rs1Of w) (rs2Of w) (immS w)⟩,
   ⟨"SH", "SH rs1,rs2,imm", 0x00001023, 0x0000707F, true, true, fun w => .sh (rs1Of w) (rs2Of w) (immS w)⟩,
   ⟨"SW", "SW rs1,rs2,imm", 0x00002023, 0x0000707F, true, true, fun w => .sw (rs1Of w) (rs2Of w) (immS w)⟩,
   ⟨"SD", "SD rs1,rs2,imm", 0x00003023, 0x0000707F, false, true, fun w => .sd (rs1Of w) (rs2Of w) (immS w)⟩]

/-- Privileged instructions (47_privileged.md R230-R233). -/
def privRows : List Row :=
  [⟨"MRET", "MRET", 0x30200073, 0xFFFFFFFF, true, true, fun _ => .mret⟩,
   ⟨"SRET", "SRET", 0x10200073, 0xFFFFFFFF, true, true, fun _ => .sret⟩,
   ⟨"WFI", "WFI", 0x10500073, 0xFFFFFFFF, true, true, fun _ => .wfi⟩,
   ⟨"SFENCE.VMA", "SFENCE.VMA rs1,rs2", 0x12000073, 0xFE007FFF, true, true, fun w => .sfenceVma (rs1Of w) (rs2Of w)⟩]

/-- The 66 rows, in the order of spec/opcode_table.json. -/
def opcodeTable : List Row :=
  shiftRows ++ arithRows ++ logicRows ++ branchRows ++ synchRows ++ csrRows ++ memRows ++ privRows

/-! ## The decoder -/

/-- The reason a word that matches no row is no instruction (R110, R125). -/
def rejectReason (xl : Xlen) (w : InstrWord) : Reject :=
  if w.extractLsb' 0 2 ≠ 0b11#2 then .compressed
  else if w.extractLsb' 2 3 = 0b111#3 then .longEncoding
  else if xl = .rv32 ∧ (opcodeTable.any fun r => r.hits .rv64 w) = true then .rv64Only
  else .noRow

/-- The instruction a word stands for (R120), or why it is none (R125). -/
def decode (xl : Xlen) (w : InstrWord) : Except Reject Instr :=
  match opcodeTable.find? fun r => r.hits xl w with
  | some r => .ok (r.build w)
  | none => .error (rejectReason xl w)

/-- The four bytes of a word in memory order: the lowest address holds bits 7:0 (20_memory.md R82). -/
def wordBytes (w : InstrWord) : List Byte :=
  [w.extractLsb' 0 8, w.extractLsb' 8 8, w.extractLsb' 16 8, w.extractLsb' 24 8]

/-- Decode the first instruction of a list of bytes in memory order; the rest of the list is handed back. -/
def decodeBytes (xl : Xlen) : List Byte → Except Reject (Instr × List Byte)
  | b0 :: b1 :: b2 :: b3 :: rest =>
    match decode xl (b3 ++ b2 ++ b1 ++ b0) with
    | .ok i => .ok (i, rest)
    | .error e => .error e
  | _ => .error .truncated

/-- The host's question: the instruction read from a table word whose bits are `w`. An RV64 machine reads every
word that either XLEN has, and reads it alike, so the question is put to it. -/
def decodeTableWord (nbits w : Nat) : Option Instr :=
  match decodeBytes .rv64 (wordBytes (BitVec.ofNat 32 (w % 2 ^ nbits))) with
  | .ok (i, _) => some i
  | .error _ => none

/-! ## The encoder (30_encoding.md R111) -/

/-- Format R. -/
def encR (f7 : BitVec 7) (rs2 rs1 : RegNum) (f3 : BitVec 3) (rd : RegNum) (op : BitVec 7) : InstrWord :=
  f7 ++ rs2 ++ rs1 ++ f3 ++ rd ++ op

/-- Format I. -/
def encI (imm : BitVec 12) (rs1 : RegNum) (f3 : BitVec 3) (rd : RegNum) (op : BitVec 7) : InstrWord :=
  imm ++ rs1 ++ f3 ++ rd ++ op

/-- Format S. -/
def encS (imm : BitVec 12) (rs2 rs1 : RegNum) (f3 : BitVec 3) (op : BitVec 7) : InstrWord :=
  imm.extractLsb' 5 7 ++ rs2 ++ rs1 ++ f3 ++ imm.extractLsb' 0 5 ++ op

/-- Format B. -/
def encB (off : BitVec 13) (rs2 rs1 : RegNum) (f3 : BitVec 3) (op : BitVec 7) : InstrWord :=
  off.extractLsb' 12 1 ++ off.extractLsb' 5 6 ++ rs2 ++ rs1 ++ f3 ++ off.extractLsb' 1 4 ++
    off.extractLsb' 11 1 ++ op

/-- Format U. -/
def encU (imm : BitVec 20) (rd : RegNum) (op : BitVec 7) : InstrWord :=
  imm ++ rd ++ op

/-- Format J. -/
def encJ (off : BitVec 21) (rd : RegNum) (op : BitVec 7) : InstrWord :=
  off.extractLsb' 20 1 ++ off.extractLsb' 1 10 ++ off.extractLsb' 11 1 ++ off.extractLsb' 12 8 ++ rd ++ op

/-- The word of an instruction (30_encoding.md R120, R121). -/
def encode : Instr → InstrWord
  | .sll rd rs1 rs2 => encR 0b0000000#7 rs2 rs1 0b001#3 rd 0b0110011#7
  | .slli rd rs1 shamt => encI (0b000000#6 ++ shamt) rs1 0b001#3 rd 0b0010011#7
  | .srl rd rs1 rs2 => encR 0b0000000#7 rs2 rs1 0b101#3 rd 0b0110011#7
  | .srli rd rs1 shamt => encI (0b000000#6 ++ shamt) rs1 0b101#3 rd 0b0010011#7
  | .sra rd rs1 rs2 => encR 0b0100000#7 rs2 rs1 0b101#3 rd 0b0110011#7
  | .srai rd rs1 shamt => encI (0b010000#6 ++ shamt) rs1 0b101#3 rd 0b0010011#7
  | .sllw rd rs1 rs2 => encR 0b0000000#7 rs2 rs1 0b001#3 rd 0b0111011#7
  | .slliw rd rs1 shamt => encR 0b0000000#7 shamt rs1 0b001#3 rd 0b0011011#7
  | .srlw rd rs1 rs2 => encR 0b0000000#7 rs2 rs1 0b101#3 rd 0b0111011#7
  | .srliw rd rs1 shamt => encR 0b0000000#7 shamt rs1 0b101#3 rd 0b0011011#7
  | .sraw rd rs1 rs2 => encR 0b0100000#7 rs2 rs1 0b101#3 rd 0b0111011#7
  | .sraiw rd rs1 shamt => encR 0b0100000#7 shamt rs1 0b101#3 rd 0b0011011#7
  | .add rd rs1 rs2 => encR 0b0000000#7 rs2 rs1 0b000#3 rd 0b0110011#7
  | .addi rd rs1 imm => encI imm rs1 0b000#3 rd 0b0010011#7
  | .sub rd rs1 rs2 => encR 0b0100000#7 rs2 rs1 0b000#3 rd 0b0110011#7
  | .lui rd imm => encU imm rd 0b0110111#7
  | .auipc rd imm => encU imm rd 0b0010111#7
  | .addw rd rs1 rs2 => encR 0b0000000#7 rs2 rs1 0b000#3 rd 0b0111011#7
  | .addiw rd rs1 imm => encI imm rs1 0b000#3 rd 0b0011011#7
  | .subw rd rs1 rs2 => encR 0b0100000#7 rs2 rs1 0b000#3 rd 0b0111011#7
  | .xor rd rs1 rs2 => encR 0b0000000#7 rs2 rs1 0b100#3 rd 0b0110011#7
  | .xori rd rs1 imm => encI imm rs1 0b100#3 rd 0b0010011#7
  | .or rd rs1 rs2 => encR 0b0000000#7 rs2 rs1 0b110#3 rd 0b0110011#7
  | .ori rd rs1 imm => encI imm rs1 0b110#3 rd 0b0010011#7
  | .and rd rs1 rs2 => encR 0b0000000#7 rs2 rs1 0b111#3 rd 0b0110011#7
  | .andi rd rs1 imm => encI imm rs1 0b111#3 rd 0b0010011#7
  | .slt rd rs1 rs2 => encR 0b0000000#7 rs2 rs1 0b010#3 rd 0b0110011#7
  | .slti rd rs1 imm => encI imm rs1 0b010#3 rd 0b0010011#7
  | .sltu rd rs1 rs2 => encR 0b0000000#7 rs2 rs1 0b011#3 rd 0b0110011#7
  | .sltiu rd rs1 imm => encI imm rs1 0b011#3 rd 0b0010011#7
  | .beq rs1 rs2 off => encB off rs2 rs1 0b000#3 0b1100011#7
  | .bne rs1 rs2 off => encB off rs2 rs1 0b001#3 0b1100011#7
  | .blt rs1 rs2 off => encB off rs2 rs1 0b100#3 0b1100011#7
  | .bge rs1 rs2 off => encB off rs2 rs1 0b101#3 0b1100011#7
  | .bltu rs1 rs2 off => encB off rs2 rs1 0b110#3 0b1100011#7
  | .bgeu rs1 rs2 off => encB off rs2 rs1 0b111#3 0b1100011#7
  | .jal rd off => encJ off rd 0b1101111#7
  | .jalr rd rs1 imm => encI imm rs1 0b000#3 rd 0b1100111#7
  | .fence fm pred succ rs1 rd => encI (fm ++ pred ++ succ) rs1 0b000#3 rd 0b0001111#7
  | .fenceI imm rs1 rd => encI imm rs1 0b001#3 rd 0b0001111#7
  | .ecall => encI 0x000#12 0#5 0b000#3 0#5 0b1110011#7
  | .ebreak => encI 0x001#12 0#5 0b000#3 0#5 0b1110011#7
  | .csrrw rd csr rs1 => encI csr rs1 0b001#3 rd 0b1110011#7
  | .csrrs rd csr rs1 => encI csr rs1 0b010#3 rd 0b1110011#7
  | .csrrc rd csr rs1 => encI csr rs1 0b011#3 rd 0b1110011#7
  | .csrrwi rd csr uimm => encI csr uimm 0b101#3 rd 0b1110011#7
  | .csrrsi rd csr uimm => encI csr uimm 0b110#3 rd 0b1110011#7
  | .csrrci rd csr uimm => encI csr uimm 0b111#3 rd 0b1110011#7
  | .lb rd rs1 imm => encI imm rs1 0b000#3 rd 0b0000011#7
  | .lh rd rs1 imm => encI imm rs1 0b001#3 rd 0b0000011#7
  | .lw rd rs1 imm => encI imm rs1 0b010#3 rd 0b0000011#7
  | .lbu rd rs1 imm => encI imm rs1 0b100#3 rd 0b0000011#7
  | .lhu rd rs1 imm => encI imm rs1 0b101#3 rd 0b0000011#7
  | .lwu rd rs1 imm => encI imm rs1 0b110#3 rd 0b0000011#7
  | .ld rd rs1 imm => encI imm rs1 0b011#3 rd 0b0000011#7
  | .sb rs1 rs2 imm => encS imm rs2 rs1 0b000#3 0b0100011#7
  | .sh rs1 rs2 imm => encS imm rs2 rs1 0b001#3 0b0100011#7
  | .sw rs1 rs2 imm => encS imm rs2 rs1 0b010#3 0b0100011#7
  | .sd rs1 rs2 imm => encS imm rs2 rs1 0b011#3 0b0100011#7
  | .mret => encR 0b0011000#7 0b00010#5 0#5 0b000#3 0#5 0b1110011#7
  | .sret => encR 0b0001000#7 0b00010#5 0#5 0b000#3 0#5 0b1110011#7
  | .wfi => encR 0b0001000#7 0b00101#5 0#5 0b000#3 0#5 0b1110011#7
  | .sfenceVma rs1 rs2 => encR 0b0001001#7 rs2 rs1 0b000#3 0#5 0b1110011#7

end Sys2Proof
end

