-- ==== Sys2Proof/Machine/Bits.lean ====
section
/-! DEFINITION. Values of XLEN bits held in a `Word`: narrowing, extension, the two readings of a value, single bits
(00_scope.md R10, R11). -/

namespace Sys2Proof.Machine

/-- The low XLEN bits of a value, the rest zero: the form in which the machine holds an XLEN-bit quantity
(assumption log 1). -/
def narrow (xl : Xlen) (v : Word) : Word :=
  match xl with
  | .rv32 => (v.setWidth 32).setWidth 64
  | .rv64 => v

/-- `signed(v)` of an XLEN-bit value (R10). -/
def signedX (xl : Xlen) (v : Word) : Int :=
  match xl with
  | .rv32 => (v.setWidth 32).toInt
  | .rv64 => v.toInt

/-- `sext(v)`: an n-bit value sign-extended to XLEN bits (R11). -/
def sextX (xl : Xlen) {n : Nat} (v : BitVec n) : Word :=
  narrow xl (v.signExtend 64)

/-- `zext(v)`: an n-bit value zero-extended to XLEN bits (R11). -/
def zextX (xl : Xlen) {n : Nat} (v : BitVec n) : Word :=
  narrow xl (v.setWidth 64)

/-- The arithmetic right shift of an XLEN-bit value: copies of bit XLEN-1 enter at the top (40_shifts.md R144). -/
def sraX (xl : Xlen) (v : Word) (n : Nat) : Word :=
  match xl with
  | .rv32 => ((v.setWidth 32).sshiftRight n).setWidth 64
  | .rv64 => v.sshiftRight n

/-- The low 32 bits, `v[31:0]`, the operand of the `W` instructions (41_arithmetic.md R168). -/
def low32 (v : Word) : BitVec 32 := v.setWidth 32

/-- Bit `i` of a word set to `b`, every other bit kept. -/
def setBit (w : Word) (i : Nat) (b : Bool) : Word :=
  if b then w ||| (1#64 <<< i) else w &&& ~~~(1#64 <<< i)

/-- The word whose only set bit, if `b`, is bit `i`. -/
def bitAt (i : Nat) (b : Bool) : Word := setBit 0#64 i b

/-- A masked write: the bits of `mask` come from `v`, the others keep the value of `old` (10_state.md R30). -/
def maskedWrite (mask old v : Word) : Word := (old &&& ~~~mask) ||| (v &&& mask)

end Sys2Proof.Machine
end

