-- ==== Sys2Proof/Config.lean ====
section
/-! DEFINITION. What an implementation or a platform fixes (spec/00_scope.md R8), the identification constants, the
shape of the platform's draws (92_eei_decisions.md, host table) and the one free value of the model. -/

namespace Sys2Proof

/-- The privilege modes (10_state.md R24); encoding 2 is reserved and has no constructor. -/
inductive Priv where
  | u
  | s
  | m
deriving DecidableEq, Repr, Inhabited

/-- U = 0, S = 1, M = 3 (10_state.md R24). -/
def Priv.level : Priv → Nat
  | .u => 0
  | .s => 1
  | .m => 3

/-- What a region of the address space is (20_memory.md R81). -/
inductive RegionKind where
  | main
  | io
deriving DecidableEq, Repr, Inhabited

/-- One region of the physical memory attributes (20_memory.md R81). -/
structure Region where
  base : Nat
  size : Nat
  kind : RegionKind
  r : Bool
  w : Bool
  x : Bool
deriving DecidableEq, Repr, Inhabited

/-- The parameters the spec leaves open and fixed for the life of the machine (00_scope.md R8). They stand in
State, so that a statement for every state is a statement for every choice of them (assumption log 1). -/
structure Platform where
  /-- XLEN (D2). -/
  xlen : Xlen
  /-- RESET_VECTOR (D13). -/
  resetVector : Word
  /-- PMA (D7). -/
  pma : List Region
deriving DecidableEq, Repr, Inhabited

/-- The region of `pma` that holds the `n` bytes at `a` (20_memory.md R90). -/
def Platform.regionAt (p : Platform) (a n : Nat) : Option Region :=
  p.pma.find? fun r => decide (r.base ≤ a) && decide (a + n ≤ r.base + r.size)

/-- The byte at `a` belongs to a `main` region (20_memory.md R81). -/
def Platform.isMain (p : Platform) (a : Nat) : Bool :=
  p.pma.any fun r => decide (r.kind = .main) && decide (r.base ≤ a) && decide (a < r.base + r.size)

/-- The constraints 20_memory.md R81 puts on one region. -/
def Region.wf (xl : Xlen) (r : Region) : Bool :=
  decide (r.base % 8 = 0) && decide (r.size % 8 = 0) && decide (r.base + r.size ≤ 2 ^ xl.bits) &&
    (!r.x || decide (r.kind = .main))

/-- Two regions share no byte. -/
def Region.disjoint (a b : Region) : Bool :=
  decide (a.base + a.size ≤ b.base) || decide (b.base + b.size ≤ a.base)

/-- The constraints 20_memory.md R81 puts on the parameters: legal disjoint regions, and a reset vector that is a
multiple of 4 in an executable region (assumption log 25). -/
def Platform.wf (p : Platform) : Bool :=
  p.pma.all (Region.wf p.xlen) && decide (p.pma.Pairwise fun a b => a.disjoint b = true) &&
    decide (p.resetVector.toNat < 2 ^ p.xlen.bits) && decide (p.resetVector.toNat % 4 = 0) &&
    (match p.regionAt p.resetVector.toNat 4 with
     | some r => r.x
     | none => false)

/-- One hart step's worth of what the spec leaves to the platform or to chance (92_eei_decisions.md, host table).
Every field is a free value: no rule constrains it (assumption log 7). -/
structure Draw where
  /-- The machine external interrupt line (60_exceptions.md R331). -/
  meip : Bool
  /-- The supervisor external interrupt line, `SEIP_ext` (R331). -/
  seipExt : Bool
  /-- The machine timer interrupt line (R331). -/
  mtip : Bool
  /-- The machine software interrupt line (R331). -/
  msip : Bool
  /-- By how much `mtime` advances, modulo 2^64 (R346; assumption log 8). -/
  mtimeAdvance : BitVec 64
  /-- The cycle increment less one: the increment is one of 1 to 2^64-1, so `mcycle` never stands still (00_scope.md R8
`ExtInputs`, 60_exceptions.md R345; assumption log 8). -/
  extraCycles : Fin 18446744073709551615
  /-- For how many further steps an interrupt that has just become takeable may be held off (R333; log 9). -/
  interruptDelay : Nat
  /-- Whether a hart waiting in WFI wakes with no interrupt pending (47_privileged.md R232; log 10). -/
  wake : Bool
  /-- What a load from an `io` region returns; a load of n bytes takes the low n bytes (20_memory.md R87; log 11). -/
  ioValue : BitVec 64
  /-- Whether EBREAK's trap value is its own address rather than 0 (60_exceptions.md R302, D17; log 12). -/
  ebreakTvalPc : Bool
  /-- The legal value `mstatus.MPP` holds after a write of the value 2 (93_implementation_defined.md U7; log 13). -/
  illegalMpp : Priv
deriving DecidableEq, Repr, Inhabited

/-- The free values of the steps for which no draw is laid down in `State.script`. No body: nothing can evaluate
it, so a statement that holds in this model holds whatever the platform does (DESIGN CHOICE, assumption log 7). -/
opaque Config.freeDraw : Nat → Draw

/-- `MVENDORID` (10_state.md R33, D22). -/
def Config.mvendorid : Word := 0

/-- `MARCHID` (R33, D22). -/
def Config.marchid : Word := 0

/-- `MIMPID` (R33, D22). -/
def Config.mimpid : Word := 0

/-- `mhartid`: the one hart has id 0 (R33, D10). -/
def Config.mhartid : Word := 0

/-- `MISA_EXT`: bits 8 (I), 18 (S), 20 (U) (00_scope.md R8, D23). -/
def Config.misaExt : Word := 0x0140100

/-- `RESET_MCAUSE` (00_scope.md R8, D13). -/
def Config.resetMcause : Word := 0

/-- The parameters of `State.reset`. The spec leaves the three of them OPEN. DESIGN CHOICE: XLEN = 64 (assumption
log 2); RESET_VECTOR = 0x1000 and one readable, writable, executable `main` region 0x0..0xFFFFF, the only
instance the spec itself works with (95_test_vectors.md, conventions; assumption log 3). -/
def Config.platform : Platform where
  xlen := .rv64
  resetVector := 0x1000
  pma := [{ base := 0, size := 0x100000, kind := .main, r := true, w := true, x := true }]

end Sys2Proof
end

