-- ==== Sys2Proof/Machine/State.lean ====
section
/-! DEFINITION. The state of the machine, as plain data (10_state.md), why a step can stop, and the reset state. -/

namespace Sys2Proof.Machine

/-- Main memory: (address, byte) pairs with rising addresses and no entry equal to what an unlisted address reads
as (10_state.md R26). The operations are in Machine/Ops.lean. -/
abbrev Memory := List Host.Cell

/-- The six interrupts of the machine (60_exceptions.md R330), highest priority first (R333). -/
inductive Interrupt where
  | mei
  | msi
  | mti
  | sei
  | ssi
  | sti
deriving DecidableEq, Repr, Inhabited

/-- The synchronous exceptions (60_exceptions.md R301). The page faults are named there and never raised. -/
inductive Exc where
  | instrAddrMisaligned
  | instrAccessFault
  | illegalInstr
  | breakpoint
  | loadAddrMisaligned
  | loadAccessFault
  | storeAddrMisaligned
  | storeAccessFault
  | ecallU
  | ecallS
  | ecallM
  | instrPageFault
  | loadPageFault
  | storePageFault
deriving DecidableEq, Repr, Inhabited

/-- The last sampled `ExtInputs` (10_state.md R27, 60_exceptions.md R331): four lines and the real-time counter. -/
structure ExtInputs where
  meip : Bool
  seipExt : Bool
  mtip : Bool
  msip : Bool
  mtime : BitVec 64
deriving DecidableEq, Repr, Inhabited

/-- One entry of the event history of `io` accesses (20_memory.md R87, R96): address, width in bytes and value of an
access, or the two sets of a FENCE. -/
inductive IoEvent where
  | read (addr : Word) (n : Nat) (value : Word)
  | write (addr : Word) (n : Nat) (value : Word)
  | fence (pred succ : BitVec 4)
deriving DecidableEq, Repr, Inhabited

/-- The whole state. A register of XLEN bits stands in a `Word` (assumption log 1). Registers that are views of
others (`sstatus`, `sie`, `sip`, `mip`, `cycle`, `time`, `instret`) or hardwired constants (`misa`, `satp`, the
identification and hpm registers) have no field: Machine/Csr.lean reads them. -/
structure State where
  /-- XLEN, RESET_VECTOR and PMA (00_scope.md R8): never changed by a step. -/
  platform : Platform
  /-- x0 to x31 (10_state.md R20); entry 0 is never read and never written. -/
  regs : Vector Word 32
  /-- The program counter (10_state.md R22). -/
  pc : Word
  /-- The privilege mode (10_state.md R24). -/
  priv : Priv
  /-- Main memory (10_state.md R26). -/
  mem : Memory
  /-- `stale_fetch` (10_state.md R27, 20_memory.md R101): rising addresses. -/
  staleFetch : List Nat
  /-- `wfi_wait` (10_state.md R27). -/
  wfiWait : Bool
  /-- `ext`, the last sampled inputs (10_state.md R27). -/
  ext : ExtInputs
  /-- `seip_sw`, the software half of `mip.SEIP` (10_state.md R27, R37). -/
  seipSw : Bool
  /-- `mip.SSIP` (10_state.md R37). -/
  ssip : Bool
  /-- `mip.STIP` (10_state.md R37). -/
  stip : Bool
  /-- The writable bits of `mstatus` (10_state.md R30). -/
  mstatus : Word
  /-- `medeleg` (10_state.md R34). -/
  medeleg : Word
  /-- `mideleg` (10_state.md R35). -/
  mideleg : Word
  /-- `mie` (10_state.md R36). -/
  mie : Word
  /-- `mtvec` (10_state.md R39). -/
  mtvec : Word
  /-- Software has written `mtvec` since reset (70_reset_and_hazards.md R362; assumption log 5). -/
  mtvecWritten : Bool
  /-- `mcounteren` (10_state.md R45). -/
  mcounteren : Word
  /-- `mscratch` (10_state.md R41). -/
  mscratch : Word
  /-- `mepc` (10_state.md R42). -/
  mepc : Word
  /-- `mcause` (10_state.md R43). -/
  mcause : Word
  /-- `mtval` (10_state.md R44). -/
  mtval : Word
  /-- `stvec` (10_state.md R40). -/
  stvec : Word
  /-- Software has written `stvec` since reset (70_reset_and_hazards.md R362; assumption log 5). -/
  stvecWritten : Bool
  /-- `scounteren` (10_state.md R45). -/
  scounteren : Word
  /-- `sscratch` (10_state.md R41). -/
  sscratch : Word
  /-- `sepc` (10_state.md R42). -/
  sepc : Word
  /-- `scause` (10_state.md R43). -/
  scause : Word
  /-- `stval` (10_state.md R44). -/
  stval : Word
  /-- The 64-bit cycle counter (10_state.md R47). -/
  mcycle : BitVec 64
  /-- The 64-bit counter of retired instructions (10_state.md R47). -/
  minstret : BitVec 64
  /-- The event history, oldest first (20_memory.md R87). -/
  ioHistory : List IoEvent
  /-- The model's own: the platform's choices for the step under way (assumption log 7). -/
  draw : Draw
  /-- The model's own: choices laid down for the coming steps (assumption log 7). -/
  script : List Draw
  /-- The model's own: the counter `Config.freeDraw` is applied to (assumption log 7). -/
  drawIndex : Nat
  /-- The model's own: the takeable interrupts held off so far, each with the number of further steps for which it
  may be held off (60_exceptions.md R333; assumption log 9). -/
  postponed : List (Interrupt × Nat)
deriving DecidableEq, Repr

/-- Why the machine stops with a fault. The spec has no halt and no lockup (60_exceptions.md R327), so the only
fault is the model's own, for states that no run reaches. -/
inductive Fault where
  /-- Raised by the fetch of `step` at a `pc` that is not a multiple of 4, for which the spec defines no `Fetch`
  (20_memory.md R92); 10_state.md R22 says that `pc` is always a multiple of 4. Safe (assumption log 16). -/
  | misalignedPc
deriving DecidableEq, Repr

/-- Why the model gives a step no meaning. -/
inductive Refusal where
  /-- Raised by `exec` for an instruction without a meaning. No arm of this model does. Safe. -/
  | notModelled (mnemonic : String)
  /-- Raised by the fetch of `step` when it touches a byte stored to since the last FENCE.I (20_memory.md R101,
  70_reset_and_hazards.md R371, D12: refused). Safe (assumption log 14). -/
  | staleFetch
  /-- Raised by a CSR instruction that writes a non-zero value to `satp` (10_state.md R46, D8, U10: refused). Safe
  (assumption log 15). -/
  | satpNonZero
  /-- Raised when a synchronous exception is to be taken in a mode whose trap vector (`mtvec`, or `stvec` if delegated)
  software has not written since reset (70_reset_and_hazards.md R362, U23: refused, no vector is picked). Safe
  (assumption log 5). -/
  | vectorUnwritten
deriving DecidableEq, Repr

/-- What a meaning answers. -/
abbrev Result := Host.Outcome State Fault Refusal

/-- XLEN of the machine (00_scope.md R8). -/
abbrev State.xlen (s : State) : Xlen := s.platform.xlen

/-- The model's draw before the first step (DESIGN CHOICE, assumption log 17). -/
def quietDraw : Draw where
  meip := false
  seipExt := false
  mtip := false
  msip := false
  mtimeAdvance := 0
  extraCycles := 0
  interruptDelay := 0
  wake := false
  ioValue := 0
  ebreakTvalPc := false
  illegalMpp := .u

/-- The state after reset on platform `p` with memory contents `mem` (10_state.md R60, 70_reset_and_hazards.md R361).
M-mode, `pc` = RESET_VECTOR, MIE = MPRV = 0, `mcause` = RESET_MCAUSE, not waiting, no stale byte. Every other
register is unspecified in R60 and holds 0 here (DESIGN CHOICE, assumption log 4). -/
def State.resetFor (p : Platform) (mem : Memory) : State where
  platform := p
  regs := Vector.replicate 32 0
  pc := p.resetVector
  priv := .m
  mem := mem
  staleFetch := []
  wfiWait := false
  ext := { meip := false, seipExt := false, mtip := false, msip := false, mtime := 0 }
  seipSw := false
  ssip := false
  stip := false
  mstatus := 0
  medeleg := 0
  mideleg := 0
  mie := 0
  mtvec := 0
  mtvecWritten := false
  mcounteren := 0
  mscratch := 0
  mepc := 0
  mcause := Config.resetMcause
  mtval := 0
  stvec := 0
  stvecWritten := false
  scounteren := 0
  sscratch := 0
  sepc := 0
  scause := 0
  stval := 0
  mcycle := 0
  minstret := 0
  ioHistory := []
  draw := quietDraw
  script := []
  drawIndex := 0
  postponed := []

/-- The machine right after reset, on the platform of Config.lean, with no byte of memory listed. -/
def State.reset : State := State.resetFor Config.platform []

/-- The platform's reset move on a running machine (70_reset_and_hazards.md R360, R361): the parameters, the memory
and the inputs the platform holds are not changed by reset (assumption log 22). -/
def State.resetMove (s : State) : State :=
  { State.resetFor s.platform s.mem with
    ext := s.ext
    ioHistory := s.ioHistory
    draw := s.draw
    script := s.script
    drawIndex := s.drawIndex }

end Sys2Proof.Machine
end

