-- ==== Sys2Proof/Machine/Ops.lean ====
section
/-! DEFINITION. The shared operations of the machine: registers and retirement, memory and its access primitives, the
fields of `mstatus`, taking an exception or an interrupt, and the two returns. -/

namespace Sys2Proof.Machine

/-! ## General registers and retirement -/

/-- `x[i]`: register i; x0 reads 0 (10_state.md R20, 00_scope.md R11). -/
def State.x (s : State) (r : RegNum) : Word :=
  if r = 0#5 then 0 else narrow s.xlen (s.regs.get r.toFin)

/-- The register file after `x[i] <- v`; a write to x0 is discarded (10_state.md R20). -/
def writeReg (xl : Xlen) (regs : Vector Word 32) (r : RegNum) (v : Word) : Vector Word 32 :=
  if r = 0#5 then regs else regs.set r.toNat (narrow xl v) r.isLt

/-- `x[i] <- v` (00_scope.md R11). -/
def State.setX (s : State) (r : RegNum) (v : Word) : State :=
  { s with regs := writeReg s.xlen s.regs r v }

/-- `pc + 4`, modulo 2^XLEN (00_scope.md R11, D32). -/
def State.nextPc (s : State) : Word := narrow s.xlen (s.pc + 4)

/-- `pc <- t` by an instruction that retires: `minstret` counts it (60_exceptions.md R345). -/
def State.retireTo (s : State) (t : Word) : State :=
  { s with pc := t, minstret := s.minstret + 1 }

/-- `pc <- pc + 4` by an instruction that retires (00_scope.md R11, 60_exceptions.md R345). -/
def State.retire (s : State) : State := s.retireTo s.nextPc

/-- `pc <- pc + 4` by an instruction that wrote `minstret` itself and so does not also increment it
(10_state.md R47). -/
def State.retireUncounted (s : State) : State := { s with pc := s.nextPc }

/-- Clear bits of an XLEN-bit address: bit 0 (43_branches_jumps.md R188). -/
def clearBit0 (v : Word) : Word := setBit v 0 false

/-- Clear bits [1:0] (10_state.md R42, 60_exceptions.md R324). -/
def clearLow2 (v : Word) : Word := setBit (setBit v 1 false) 0 false

/-! ## Bytes of memory -/

/-- What a byte nothing has listed reads as. R60 gives main memory "given by the platform at launch"; with no byte
listed the model reads 0 (DESIGN CHOICE, unsafe for State.reset; assumption log 6). -/
def defaultByte : Byte := 0

/-- The byte of `main` memory at an address (10_state.md R26). -/
def memByte : Memory → Nat → Byte
  | [], _ => defaultByte
  | (k, b) :: rest, a => if k = a then b else memByte rest a

/-- Memory with the entry at `a` dropped. -/
def memErase : Memory → Nat → Memory
  | [], _ => []
  | (k, b) :: rest, a => if k = a then memErase rest a else (k, b) :: memErase rest a

/-- Memory with an entry put at its place in the order. -/
def memInsert : Memory → Nat → Byte → Memory
  | [], a, v => [(a, v)]
  | (k, b) :: rest, a, v => if a < k then (a, v) :: (k, b) :: rest else (k, b) :: memInsert rest a v

/-- `mem[a] <- v`, keeping the canonical form. -/
def memSet (m : Memory) (a : Nat) (v : Byte) : Memory :=
  if v = defaultByte then memErase m a else memInsert (memErase m a) a v

/-- The canonical form: addresses strictly rising, no entry equal to what an unlisted address reads as. -/
def Memory.wf (m : Memory) : Bool :=
  decide (m.Pairwise fun p q => p.1 < q.1) && m.all fun p => p.2 != defaultByte

/-- The `n` bytes at `a` as one value, little-endian (20_memory.md R82, R90). -/
def readBytes (m : Memory) (a : Nat) : Nat → Word
  | 0 => 0
  | n + 1 => (memByte m a).setWidth 64 ||| (readBytes m (a + 1) n <<< 8)

/-- The low `n` bytes of `v` stored at `a`, little-endian (20_memory.md R82, R91). -/
def writeBytes (m : Memory) (a : Nat) : Nat → Word → Memory
  | 0, _ => m
  | n + 1, v => writeBytes (memSet m a (v.setWidth 8)) (a + 1) n (v >>> 8)

/-- The low `n` bytes of a value. -/
def lowBytes (n : Nat) (v : Word) : Word := v &&& BitVec.ofNat 64 (2 ^ (8 * n) - 1)

/-- The 32-bit word at `a`, little-endian (20_memory.md R92). -/
def memWord (m : Memory) (a : Nat) : InstrWord :=
  memByte m (a + 3) ++ memByte m (a + 2) ++ memByte m (a + 1) ++ memByte m a

/-- `stale_fetch` with one address added; addresses rise. -/
def staleInsert : List Nat → Nat → List Nat
  | [], a => [a]
  | k :: rest, a => if a < k then a :: k :: rest else if a = k then k :: rest else k :: staleInsert rest a

/-- `stale_fetch ∪ {a .. a+n-1}` (20_memory.md R91). -/
def staleAdd (l : List Nat) (a : Nat) : Nat → List Nat
  | 0 => l
  | n + 1 => staleAdd (staleInsert l a) (a + 1) n

/-! ## The access primitives (20_memory.md R90-R92) -/

/-- `MemRead(addr, n)` (R90): the value and the state with the access recorded, or the exception it raises, whose
trap value is `addr`. Misalignment is checked before the access fault (60_exceptions.md R310). -/
def memRead (s : State) (addr : Word) (n : Nat) : Except Exc (Word × State) :=
  if addr.toNat % n ≠ 0 then .error .loadAddrMisaligned
  else
    match s.platform.regionAt addr.toNat n with
    | none => .error .loadAccessFault
    | some r =>
      if r.r = false then .error .loadAccessFault
      else
        match r.kind with
        | .main => .ok (readBytes s.mem addr.toNat n, s)
        | .io =>
          .ok (lowBytes n s.draw.ioValue,
            { s with ioHistory := s.ioHistory ++ [.read addr n (lowBytes n s.draw.ioValue)] })

/-- `MemWrite(addr, n, v)` (R91): the state after it, or the exception it raises, whose trap value is `addr`. -/
def memWrite (s : State) (addr : Word) (n : Nat) (v : Word) : Except Exc State :=
  if addr.toNat % n ≠ 0 then .error .storeAddrMisaligned
  else
    match s.platform.regionAt addr.toNat n with
    | none => .error .storeAccessFault
    | some r =>
      if r.w = false then .error .storeAccessFault
      else
        match r.kind with
        | .main =>
          .ok { s with
            mem := writeBytes s.mem addr.toNat n v
            staleFetch := if r.x then staleAdd s.staleFetch addr.toNat n else s.staleFetch }
        | .io => .ok { s with ioHistory := s.ioHistory ++ [.write addr n (lowBytes n v)] }

/-- What `Fetch(pc)` comes to (20_memory.md R92). -/
inductive FetchResult where
  /-- The word at `pc`. -/
  | word (w : InstrWord)
  /-- The four bytes are not inside one executable region (exception code 1). -/
  | accessFault
  /-- A byte was stored to since the last FENCE.I (R101). -/
  | stale
  /-- `pc` is not a multiple of 4: outside the domain of R92 (assumption log 16). -/
  | misaligned
deriving DecidableEq, Repr

/-- `Fetch(pc)` (20_memory.md R92). -/
def fetch (s : State) : FetchResult :=
  if s.pc.toNat % 4 ≠ 0 then .misaligned
  else
    match s.platform.regionAt s.pc.toNat 4 with
    | none => .accessFault
    | some r =>
      if r.x = false ∨ r.kind = .io then .accessFault
      else if (s.staleFetch.any fun a => decide (s.pc.toNat ≤ a) && decide (a < s.pc.toNat + 4)) = true then .stale
      else .word (memWord s.mem s.pc.toNat)

/-! ## Fields of `mstatus` (10_state.md R30) -/

abbrev bitSIE : Nat := 1
abbrev bitMIE : Nat := 3
abbrev bitSPIE : Nat := 5
abbrev bitMPIE : Nat := 7
abbrev bitSPP : Nat := 8
abbrev bitTVM : Nat := 20
abbrev bitTW : Nat := 21
abbrev bitTSR : Nat := 22

/-- The bits of `mstatus` a CSR write can change (10_state.md R30). -/
abbrev mstatusMask : Word := 0x007E19AA

/-- The mode `mstatus.MPP` stands for. The value 2 is never stored (R30, U7); it is read as U (assumption log 13). -/
def mppPriv (w : Word) : Priv :=
  if w.getLsbD 11 then (if w.getLsbD 12 then .m else .s) else .u

/-- `mstatus.MPP <- p`: 0, 1 or 3 (R30). -/
def setMpp (w : Word) (p : Priv) : Word :=
  setBit (setBit w 11 (p != .u)) 12 (p == .m)

/-- The mode `mstatus.SPP` stands for: 0 = U, 1 = S (R30). -/
def sppPriv (w : Word) : Priv :=
  if w.getLsbD bitSPP then .s else .u

/-! ## Codes (60_exceptions.md R301, R330) -/

/-- The exception code (R301). -/
def Exc.code : Exc → Nat
  | .instrAddrMisaligned => 0
  | .instrAccessFault => 1
  | .illegalInstr => 2
  | .breakpoint => 3
  | .loadAddrMisaligned => 4
  | .loadAccessFault => 5
  | .storeAddrMisaligned => 6
  | .storeAccessFault => 7
  | .ecallU => 8
  | .ecallS => 9
  | .ecallM => 11
  | .instrPageFault => 12
  | .loadPageFault => 13
  | .storePageFault => 15

/-- The interrupt code, also the bit number in `mip`, `mie` and `mideleg` (R330). -/
def Interrupt.code : Interrupt → Nat
  | .mei => 11
  | .msi => 3
  | .mti => 7
  | .sei => 9
  | .ssi => 1
  | .sti => 5

/-- `(Interrupt << (XLEN-1)) | code` (R322). -/
def causeWord (xl : Xlen) (isInterrupt : Bool) (code : Nat) : Word :=
  bitAt (xl.bits - 1) isInterrupt ||| BitVec.ofNat 64 code

/-- `TrapVector(tvec, Interrupt, code)` (60_exceptions.md R324). -/
def trapVector (xl : Xlen) (tvec : Word) (isInterrupt : Bool) (code : Nat) : Word :=
  if tvec.extractLsb' 0 2 = 1#2 ∧ isInterrupt = true then
    narrow xl (clearLow2 tvec + 4 * BitVec.ofNat 64 code)
  else clearLow2 tvec

/-! ## Trap entry (60_exceptions.md R320-R324) -/

/-- `mstatus` after entry to M-mode from mode `p` (R322). -/
def mstatusEnterM (w : Word) (p : Priv) : Word :=
  setMpp (setBit (setBit w bitMPIE (w.getLsbD bitMIE)) bitMIE false) p

/-- `mstatus` after entry to S-mode from mode `p` (R323). -/
def mstatusEnterS (w : Word) (p : Priv) : Word :=
  setBit (setBit (setBit w bitSPIE (w.getLsbD bitSIE)) bitSIE false) bitSPP (p == .s)

/-- Entry to M-mode (R322), with `epc` = `pc`; `wfi_wait` is cleared (R320). -/
def State.enterM (s : State) (isInterrupt : Bool) (code : Nat) (tval : Word) : State :=
  { s with
    mepc := s.pc
    mcause := causeWord s.xlen isInterrupt code
    mtval := tval
    mstatus := mstatusEnterM s.mstatus s.priv
    priv := .m
    pc := trapVector s.xlen s.mtvec isInterrupt code
    wfiWait := false }

/-- Entry to S-mode (R323), with `epc` = `pc`; `wfi_wait` is cleared (R320). -/
def State.enterS (s : State) (isInterrupt : Bool) (code : Nat) (tval : Word) : State :=
  { s with
    sepc := s.pc
    scause := causeWord s.xlen isInterrupt code
    stval := tval
    mstatus := mstatusEnterS s.mstatus s.priv
    priv := .s
    pc := trapVector s.xlen s.stvec isInterrupt code
    wfiWait := false }

/-- Whether an exception raised in the present mode is handled in S-mode (R321). -/
def State.delegates (s : State) (e : Exc) : Bool :=
  s.priv != .m && s.medeleg.getLsbD e.code

/-- Taking a synchronous exception with its trap value (R320, R321); `epc` is the address of the instruction that
raised it (R303). -/
def State.takeException (s : State) (e : Exc) (tval : Word) : State :=
  if s.delegates e then s.enterS false e.code tval else s.enterM false e.code tval

/-- Taking an interrupt (R320, R321, R333): trap value 0, `epc` = the present `pc`. -/
def State.takeInterrupt (s : State) (i : Interrupt) : State :=
  if s.mideleg.getLsbD i.code then s.enterS true i.code 0 else s.enterM true i.code 0

/-- Software has written the trap vector the exception goes through (70_reset_and_hazards.md R362). -/
def State.vectorWritten (s : State) (e : Exc) : Bool :=
  if s.delegates e then s.stvecWritten else s.mtvecWritten

/-- `raise E(info)` (00_scope.md R11): the instruction has no other effect (60_exceptions.md R303). Before software has
written the vector there is no place to go to: refused (70_reset_and_hazards.md R362, U23; assumption log 5). -/
def raise (e : Exc) (tval : Word) (s : State) : Result :=
  if s.vectorWritten e then .next (s.takeException e tval) else .refused .vectorUnwritten

/-- `raise IllegalInstruction(inst)`: the trap value is the word, zero-extended (60_exceptions.md R302). -/
def raiseIllegal (w : InstrWord) (s : State) : Result :=
  raise .illegalInstr (zextX s.xlen w) s

/-- A meaning that exists only when XLEN = 64; on RV32 the word is illegal (30_encoding.md R125; log 20). -/
def onlyRV64 (i : Instr) (body : Result) (s : State) : Result :=
  match s.xlen with
  | .rv64 => body
  | .rv32 => raiseIllegal (encode i) s

/-! ## Trap return (47_privileged.md R230, R231) -/

/-- `mstatus` after MRET (R230). -/
def mstatusMret (w : Word) : Word :=
  setMpp (setBit (setBit w bitMIE (w.getLsbD bitMPIE)) bitMPIE true) .u

/-- `mstatus` after SRET (R231). -/
def mstatusSret (w : Word) : Word :=
  setBit (setBit (setBit w bitSIE (w.getLsbD bitSPIE)) bitSPIE true) bitSPP false

/-- The return from an M-mode handler (R230); it retires. -/
def State.returnM (s : State) : State :=
  { s with mstatus := mstatusMret s.mstatus, priv := mppPriv s.mstatus }.retireTo s.mepc

/-- The return from an S-mode handler (R231); it retires. -/
def State.returnS (s : State) : State :=
  { s with mstatus := mstatusSret s.mstatus, priv := sppPriv s.mstatus }.retireTo s.sepc

/-! ## Interrupt-pending bits (10_state.md R37) -/

/-- `mip` with the given bit 9: the other bits are the two stored ones and three of the sampled lines. -/
def mipWith (s : State) (seip : Bool) : Word :=
  bitAt 1 s.ssip ||| bitAt 3 s.ext.msip ||| bitAt 5 s.stip ||| bitAt 7 s.ext.mtip ||| bitAt 9 seip |||
    bitAt 11 s.ext.meip

/-- `mip` as it is read: bit 9 is `seip_sw OR ext.SEIP_ext` (R37). -/
def State.mip (s : State) : Word := mipWith s (s.seipSw || s.ext.seipExt)

end Sys2Proof.Machine
end

