-- ==== Sys2Proof/Machine/Operands.lean ====
section
/-! DEFINITION. The operand forms (00_scope.md R12, 30_encoding.md R113, R114, 46_loads_stores.md R210). The register
operands are `State.x` of Machine/Ops.lean. -/

namespace Sys2Proof.Machine

/-- The I- or S-immediate: 12 bits sign-extended to XLEN (30_encoding.md R113). -/
def imm12 (s : State) (imm : BitVec 12) : Word := sextX s.xlen imm

/-- The U-immediate: the 20-bit field with twelve zeros below it, sign-extended to XLEN (30_encoding.md R113). -/
def immUpper (s : State) (imm : BitVec 20) : Word := sextX s.xlen (imm ++ 0#12)

/-- The zero-extended 5-bit immediate of the CSR instructions (30_encoding.md R114). -/
def uimm5 (s : State) (uimm : BitVec 5) : Word := zextX s.xlen uimm

/-- The shift amount of the register forms: the low log2(XLEN) bits of `x[rs2]` (40_shifts.md R140). -/
def shiftAmount (s : State) (rs2 : RegNum) : Nat :=
  match s.xlen with
  | .rv32 => ((s.x rs2).extractLsb' 0 5).toNat
  | .rv64 => ((s.x rs2).extractLsb' 0 6).toNat

/-- The shift amount of the `W` register forms: the low 5 bits of `x[rs2]` (40_shifts.md R146). -/
def shiftAmountW (s : State) (rs2 : RegNum) : Nat := ((s.x rs2).extractLsb' 0 5).toNat

/-- The effective address of a load or store, modulo 2^XLEN (46_loads_stores.md R210). -/
def effectiveAddress (s : State) (rs1 : RegNum) (imm : BitVec 12) : Word :=
  narrow s.xlen (s.x rs1 + imm12 s imm)

/-- The target of a pc-relative transfer, modulo 2^XLEN (43_branches_jumps.md R180). -/
def relativeTarget (s : State) {n : Nat} (off : BitVec n) : Word :=
  narrow s.xlen (s.pc + sextX s.xlen off)

/-- The target of JALR: the sum with bit 0 cleared (43_branches_jumps.md R188). -/
def jalrTarget (s : State) (rs1 : RegNum) (imm : BitVec 12) : Word :=
  clearBit0 (narrow s.xlen (s.x rs1 + imm12 s imm))

end Sys2Proof.Machine
end

