-- ==== Sys2Proof/Machine/Flags.lean ====
section
/-! DEFINITION. The machine has no flags (10_state.md R23): the compare instructions write 1 or 0 to a register and the
branches compare two registers. Here stand the comparisons and the width extensions they and the loads share. -/

namespace Sys2Proof.Machine

/-- `signed(a) <s signed(b)`, exact (42_logical_compare.md R176). -/
def ltSigned (xl : Xlen) (a b : Word) : Bool := decide (signedX xl a < signedX xl b)

/-- `unsigned(a) <u unsigned(b)` (42_logical_compare.md R178). -/
def ltUnsigned (xl : Xlen) (a b : Word) : Bool := decide ((narrow xl a).toNat < (narrow xl b).toNat)

/-- `a = b` (43_branches_jumps.md R181). -/
def sameX (xl : Xlen) (a b : Word) : Bool := narrow xl a == narrow xl b

/-- The result of a compare instruction: the XLEN-bit value 1 or 0 (42_logical_compare.md, section Compare). -/
def boolWord (b : Bool) : Word := if b then 1 else 0

/-- A 32-bit result of a `W` instruction sign-extended to 64 bits (41_arithmetic.md R168). -/
def sextW (v : BitVec 32) : Word := v.signExtend 64

/-- The low `n` bits of a loaded value, sign-extended (46_loads_stores.md R211-R213). -/
def sextLoad (n : Nat) (v : Word) : Word := (v.setWidth n).signExtend 64

/-- The low `n` bits of a loaded value, zero-extended (46_loads_stores.md R214-R216). -/
def zextLoad (n : Nat) (v : Word) : Word := (v.setWidth n).setWidth 64

end Sys2Proof.Machine
end

