-- ==== Sys2Proof/Machine/Alu.lean ====
section
/-! DEFINITION. The two shapes the register-writing instructions share. -/

namespace Sys2Proof.Machine

/-- The shared shape of the instructions that write `x[rd]` and go on: `x[rd] <- v; pc <- pc + 4`
(00_scope.md R11). -/
def writeAndRetire (rd : RegNum) (v : Word) (s : State) : Result :=
  .next (s.setX rd v).retire

/-- The shared shape of the `W` instructions: the 32-bit result sign-extended into `x[rd]`; they exist only when
XLEN = 64 (41_arithmetic.md R168). -/
def writeW (inst : Instr) (rd : RegNum) (v : BitVec 32) (s : State) : Result :=
  onlyRV64 inst (writeAndRetire rd (sextW v) s) s

end Sys2Proof.Machine
end

