-- ==== Sys2Proof/Machine/Arithmetic.lean ====
section
/-! DEFINITION. The arithmetic instructions (41_arithmetic.md R160-R168). Overflow is never detected. -/

namespace Sys2Proof.Machine

/-- ADD: `x[rd] <- (x[rs1] + x[rs2]) mod 2^XLEN` (R160). -/
def execAdd (rd rs1 rs2 : RegNum) (s : State) : Result :=
  writeAndRetire rd (s.x rs1 + s.x rs2) s

/-- ADDI: `x[rd] <- (x[rs1] + sext(imm)) mod 2^XLEN` (R161). -/
def execAddi (rd rs1 : RegNum) (imm : BitVec 12) (s : State) : Result :=
  writeAndRetire rd (s.x rs1 + imm12 s imm) s

/-- SUB: `x[rd] <- (x[rs1] - x[rs2]) mod 2^XLEN` (R162). -/
def execSub (rd rs1 rs2 : RegNum) (s : State) : Result :=
  writeAndRetire rd (s.x rs1 - s.x rs2) s

/-- LUI: `x[rd] <- sext(imm ++ 0x000)` (R163). -/
def execLui (rd : RegNum) (imm : BitVec 20) (s : State) : Result :=
  writeAndRetire rd (immUpper s imm) s

/-- AUIPC: `x[rd] <- (pc + sext(imm ++ 0x000)) mod 2^XLEN` (R164). -/
def execAuipc (rd : RegNum) (imm : BitVec 20) (s : State) : Result :=
  writeAndRetire rd (s.pc + immUpper s imm) s

/-- ADDW: `x[rd] <- sext((x[rs1][31:0] + x[rs2][31:0]) mod 2^32)` (R165). -/
def execAddw (rd rs1 rs2 : RegNum) (s : State) : Result :=
  writeW (.addw rd rs1 rs2) rd (low32 (s.x rs1) + low32 (s.x rs2)) s

/-- ADDIW: `x[rd] <- sext((x[rs1] + sext(imm))[31:0])` (R166). -/
def execAddiw (rd rs1 : RegNum) (imm : BitVec 12) (s : State) : Result :=
  writeW (.addiw rd rs1 imm) rd (low32 (s.x rs1 + imm12 s imm)) s

/-- SUBW: `x[rd] <- sext((x[rs1][31:0] - x[rs2][31:0]) mod 2^32)` (R167). -/
def execSubw (rd rs1 rs2 : RegNum) (s : State) : Result :=
  writeW (.subw rd rs1 rs2) rd (low32 (s.x rs1) - low32 (s.x rs2)) s

end Sys2Proof.Machine
end

