-- ==== Sys2Proof/Machine/Branches.lean ====
section
/-! DEFINITION. Branches and jumps (43_branches_jumps.md R180-R188). -/

namespace Sys2Proof.Machine

/-- A transfer of control to `t` that writes `pc + 4` to `x[rd]` when `link` names a register (43_branches_jumps.md
R180): a target that is not a multiple of 4 raises InstructionAddressMisaligned, and then nothing is written. -/
def transfer (link : Option RegNum) (t : Word) (s : State) : Result :=
  if t.extractLsb' 0 2 ≠ 0#2 then raise .instrAddrMisaligned t s
  else
    match link with
    | some rd => .next ((s.setX rd s.nextPc).retireTo t)
    | none => .next (s.retireTo t)

/-- A conditional branch (43_branches_jumps.md, section Branches); one that is not taken never raises. -/
def branch (cond : Bool) (off : BitVec 13) (s : State) : Result :=
  if cond then transfer none (relativeTarget s off) s else .next s.retire

/-- BEQ: taken if `x[rs1] = x[rs2]` (R181). -/
def execBeq (rs1 rs2 : RegNum) (off : BitVec 13) (s : State) : Result :=
  branch (sameX s.xlen (s.x rs1) (s.x rs2)) off s

/-- BNE: taken if `x[rs1] ≠ x[rs2]` (R182). -/
def execBne (rs1 rs2 : RegNum) (off : BitVec 13) (s : State) : Result :=
  branch (!sameX s.xlen (s.x rs1) (s.x rs2)) off s

/-- BLT: taken if `x[rs1] <s x[rs2]` (R183). -/
def execBlt (rs1 rs2 : RegNum) (off : BitVec 13) (s : State) : Result :=
  branch (ltSigned s.xlen (s.x rs1) (s.x rs2)) off s

/-- BGE: taken if `x[rs1] ≥s x[rs2]` (R184). -/
def execBge (rs1 rs2 : RegNum) (off : BitVec 13) (s : State) : Result :=
  branch (!ltSigned s.xlen (s.x rs1) (s.x rs2)) off s

/-- BLTU: taken if `x[rs1] <u x[rs2]` (R185). -/
def execBltu (rs1 rs2 : RegNum) (off : BitVec 13) (s : State) : Result :=
  branch (ltUnsigned s.xlen (s.x rs1) (s.x rs2)) off s

/-- BGEU: taken if `x[rs1] ≥u x[rs2]` (R186). -/
def execBgeu (rs1 rs2 : RegNum) (off : BitVec 13) (s : State) : Result :=
  branch (!ltUnsigned s.xlen (s.x rs1) (s.x rs2)) off s

/-- JAL: to `pc + off`, link `pc + 4` (R187). -/
def execJal (rd : RegNum) (off : BitVec 21) (s : State) : Result :=
  transfer (some rd) (relativeTarget s off) s

/-- JALR: to `(x[rs1] + sext(imm)) AND NOT 1`, link `pc + 4` (R188). -/
def execJalr (rd rs1 : RegNum) (imm : BitVec 12) (s : State) : Result :=
  transfer (some rd) (jalrTarget s rs1 imm) s

end Sys2Proof.Machine
end

