-- ==== Sys2Proof/Machine/Csr.lean ====
section
/-! DEFINITION. The control and status registers (10_state.md R28-R50): the address map, the access check
(45_csr.md R200), reading and writing each register, and the operation the six CSR instructions share. -/

namespace Sys2Proof.Machine

/-- The implemented CSRs (10_state.md R29); the hpm families carry the number of the counter. -/
inductive Csr where
  | sstatus
  | sie
  | stvec
  | scounteren
  | sscratch
  | sepc
  | scause
  | stval
  | sip
  | satp
  | mstatus
  | misa
  | medeleg
  | mideleg
  | mie
  | mtvec
  | mcounteren
  | mhpmevent (n : Nat)
  | mscratch
  | mepc
  | mcause
  | mtval
  | mip
  | mcycle
  | minstret
  | mhpmcounter (n : Nat)
  | mcycleh
  | minstreth
  | mhpmcounterh (n : Nat)
  | cycle
  | time
  | instret
  | hpmcounter (n : Nat)
  | cycleh
  | timeh
  | instreth
  | hpmcounterh (n : Nat)
  | mvendorid
  | marchid
  | mimpid
  | mhartid
deriving DecidableEq, Repr

/-- Counters 3 to 31 of an hpm family, from the address of counter 3 on (R29, R49). -/
def hpmRows (base : Nat) (mk : Nat → Csr) : List (Nat × Csr) :=
  (List.range 29).map fun k => (base + k, mk (k + 3))

/-- The CSR addresses that exist for both XLENs (R29). -/
def csrRowsBoth : List (Nat × Csr) :=
  [(0x100, .sstatus), (0x104, .sie), (0x105, .stvec), (0x106, .scounteren), (0x140, .sscratch),
   (0x141, .sepc), (0x142, .scause), (0x143, .stval), (0x144, .sip), (0x180, .satp),
   (0x300, .mstatus), (0x301, .misa), (0x302, .medeleg), (0x303, .mideleg), (0x304, .mie),
   (0x305, .mtvec), (0x306, .mcounteren)] ++
  [(0x340, .mscratch), (0x341, .mepc), (0x342, .mcause), (0x343, .mtval), (0x344, .mip),
   (0xB00, .mcycle), (0xB02, .minstret), (0xC00, .cycle), (0xC01, .time), (0xC02, .instret),
   (0xF11, .mvendorid), (0xF12, .marchid), (0xF13, .mimpid), (0xF14, .mhartid)] ++
  hpmRows 0x323 .mhpmevent ++ hpmRows 0xB03 .mhpmcounter ++ hpmRows 0xC03 .hpmcounter

/-- The high halves of the counters, which exist only when XLEN = 32 (R29). -/
def csrRows32 : List (Nat × Csr) :=
  [(0xB80, .mcycleh), (0xB82, .minstreth), (0xC80, .cycleh), (0xC81, .timeh), (0xC82, .instreth)] ++
  hpmRows 0xB83 .mhpmcounterh ++ hpmRows 0xC83 .hpmcounterh

/-- The register at a CSR address, if one is implemented there for this XLEN (R29, R50). -/
def csrAt (xl : Xlen) (a : BitVec 12) : Option Csr :=
  match xl with
  | .rv32 => (csrRowsBoth ++ csrRows32).lookup a.toNat
  | .rv64 => csrRowsBoth.lookup a.toNat

/-! ## The access check -/

/-- The lowest privilege level that may access an address: bits [9:8] (R28). -/
def csrLevel (a : BitVec 12) : Nat := (a.extractLsb' 8 2).toNat

/-- A read-only address: bits [11:10] = 11 (R28). -/
def csrReadOnly (a : BitVec 12) : Bool := a.extractLsb' 10 2 == 0b11#2

/-- The addresses of the counter shadows, gated by the counter-enable registers (R45, 45_csr.md R200). -/
def isCounterShadow (a : BitVec 12) : Bool :=
  (decide (0xC00 ≤ a.toNat) && decide (a.toNat ≤ 0xC1F)) ||
    (decide (0xC80 ≤ a.toNat) && decide (a.toNat ≤ 0xC9F))

/-- The counter-enable gate (45_csr.md R200): S needs the bit of `mcounteren`, U those of both registers. -/
def counterEnabled (s : State) (a : BitVec 12) : Bool :=
  let i := (a.extractLsb' 0 5).toNat
  match s.priv with
  | .m => true
  | .s => s.mcounteren.getLsbD i
  | .u => s.mcounteren.getLsbD i && s.scounteren.getLsbD i

/-- `CsrCheck(a, w)` but for the existence of the register (45_csr.md R200). -/
def csrAllowed (s : State) (a : BitVec 12) (w : Bool) : Bool :=
  decide (csrLevel a ≤ s.priv.level) &&
    !(w && csrReadOnly a) &&
    !(decide (a = 0x180#12) && decide (s.priv = .s) && s.mstatus.getLsbD bitTVM) &&
    (!isCounterShadow a || counterEnabled s a)

/-- `CsrCheck(a, w)` (45_csr.md R200): the register an access may go to, none where the instruction is illegal. -/
def csrCheck (s : State) (a : BitVec 12) (w : Bool) : Option Csr :=
  if csrAllowed s a w then csrAt s.xlen a else none

/-! ## Reading -/

/-- The bits a write to `sstatus` can change (R31). -/
abbrev sstatusMask : Word := 0x000C0122

/-- The interrupts that can be delegated: SSI, STI, SEI (R35). -/
abbrev sInterruptMask : Word := 0x222

/-- `smask`: the bits `sie` and `sip` show (R38). -/
def smask (s : State) : Word := s.mideleg &&& sInterruptMask

/-- UXL = SXL = 2 on RV64 (R30). -/
def mstatusHard (xl : Xlen) : Word :=
  match xl with
  | .rv32 => 0
  | .rv64 => 0x0000000A00000000

/-- UXL = 2 on RV64 (R31). -/
def sstatusHard (xl : Xlen) : Word :=
  match xl with
  | .rv32 => 0
  | .rv64 => 0x0000000200000000

/-- `misa`: MXL in the two top bits, the extensions below (R32). -/
def misaValue (xl : Xlen) : Word :=
  match xl with
  | .rv32 => 0x40000000 ||| Config.misaExt
  | .rv64 => 0x8000000000000000 ||| Config.misaExt

/-- Bits [63:32] of a 64-bit counter (R47). -/
def highHalf (v : BitVec 64) : Word := v >>> 32

/-- `CsrRead(a)`: the XLEN-bit value 10_state.md defines for the register (45_csr.md R200). -/
def csrRead (c : Csr) (s : State) : Word :=
  narrow s.xlen <|
    match c with
    | .sstatus => (s.mstatus &&& sstatusMask) ||| sstatusHard s.xlen
    | .sie => s.mie &&& smask s
    | .stvec => s.stvec
    | .scounteren => s.scounteren
    | .sscratch => s.sscratch
    | .sepc => s.sepc
    | .scause => s.scause
    | .stval => s.stval
    | .sip => s.mip &&& smask s
    | .satp => 0
    | .mstatus => s.mstatus ||| mstatusHard s.xlen
    | .misa => misaValue s.xlen
    | .medeleg => s.medeleg
    | .mideleg => s.mideleg
    | .mie => s.mie
    | .mtvec => s.mtvec
    | .mcounteren => s.mcounteren
    | .mhpmevent _ => 0
    | .mscratch => s.mscratch
    | .mepc => s.mepc
    | .mcause => s.mcause
    | .mtval => s.mtval
    | .mip => s.mip
    | .mcycle => s.mcycle
    | .minstret => s.minstret
    | .mhpmcounter _ => 0
    | .mcycleh => highHalf s.mcycle
    | .minstreth => highHalf s.minstret
    | .mhpmcounterh _ => 0
    | .cycle => s.mcycle
    | .time => s.ext.mtime
    | .instret => s.minstret
    | .hpmcounter _ => 0
    | .cycleh => highHalf s.mcycle
    | .timeh => highHalf s.ext.mtime
    | .instreth => highHalf s.minstret
    | .hpmcounterh _ => 0
    | .mvendorid => Config.mvendorid
    | .marchid => Config.marchid
    | .mimpid => Config.mimpid
    | .mhartid => Config.mhartid

/-- The value the set and clear forms modify: for `mip` bit 9 is `seip_sw` alone (R37). -/
def csrModifyBase (c : Csr) (s : State) : Word :=
  match c with
  | .mip => narrow s.xlen (mipWith s s.seipSw)
  | _ => csrRead c s

/-! ## Writing -/

/-- A write to `mstatus` (R30): the writable bits change, and a write of the value 2 to MPP leaves the field with
the free legal value of the draw (U7; assumption log 13). -/
def writeMstatus (s : State) (v : Word) : Word :=
  let new := maskedWrite mstatusMask s.mstatus v
  if v.getLsbD 12 = true ∧ v.getLsbD 11 = false then setMpp new s.draw.illegalMpp else new

/-- The value of a trap vector register after a write: every bit but bit 1 (R39, R40). -/
def tvecValue (xl : Xlen) (v : Word) : Word := setBit (narrow xl v) 1 false

/-- The low half of a 64-bit counter replaced (R47). -/
def setLowHalf (old v : Word) : Word := maskedWrite 0x00000000FFFFFFFF old v

/-- The high half of a 64-bit counter replaced (R47). -/
def setHighHalf (old v : Word) : Word := maskedWrite 0xFFFFFFFF00000000 old (v <<< 32)

/-- A counter after a write to its XLEN-bit register (R47). -/
def writeCounter (xl : Xlen) (old v : Word) : Word :=
  match xl with
  | .rv32 => setLowHalf old v
  | .rv64 => v

/-- `CsrWrite(a, v)`: the register's own write rule of 10_state.md (45_csr.md R200). Read-only and hardwired
registers keep their value. A non-zero value to `satp` is refused (R46, U10; assumption log 15). -/
def csrWrite (c : Csr) (v : Word) (s : State) : Except Refusal State :=
  match c with
  | .sstatus => .ok { s with mstatus := maskedWrite sstatusMask s.mstatus v }
  | .sie => .ok { s with mie := maskedWrite (smask s) s.mie v }
  | .stvec => .ok { s with stvec := tvecValue s.xlen v, stvecWritten := true }
  | .scounteren => .ok { s with scounteren := v &&& 0x7 }
  | .sscratch => .ok { s with sscratch := narrow s.xlen v }
  | .sepc => .ok { s with sepc := clearLow2 (narrow s.xlen v) }
  | .scause => .ok { s with scause := narrow s.xlen v }
  | .stval => .ok { s with stval := narrow s.xlen v }
  | .sip => .ok { s with ssip := if s.mideleg.getLsbD 1 then v.getLsbD 1 else s.ssip }
  | .satp => if narrow s.xlen v = 0 then .ok s else .error .satpNonZero
  | .mstatus => .ok { s with mstatus := writeMstatus s v }
  | .misa => .ok s
  | .medeleg => .ok { s with medeleg := v &&& 0xB3FF }
  | .mideleg => .ok { s with mideleg := v &&& sInterruptMask }
  | .mie => .ok { s with mie := v &&& 0xAAA }
  | .mtvec => .ok { s with mtvec := tvecValue s.xlen v, mtvecWritten := true }
  | .mcounteren => .ok { s with mcounteren := v &&& 0x7 }
  | .mhpmevent _ => .ok s
  | .mscratch => .ok { s with mscratch := narrow s.xlen v }
  | .mepc => .ok { s with mepc := clearLow2 (narrow s.xlen v) }
  | .mcause => .ok { s with mcause := narrow s.xlen v }
  | .mtval => .ok { s with mtval := narrow s.xlen v }
  | .mip => .ok { s with ssip := v.getLsbD 1, stip := v.getLsbD 5, seipSw := v.getLsbD 9 }
  | .mcycle => .ok { s with mcycle := writeCounter s.xlen s.mcycle v }
  | .minstret => .ok { s with minstret := writeCounter s.xlen s.minstret v }
  | .mhpmcounter _ => .ok s
  | .mcycleh => .ok { s with mcycle := setHighHalf s.mcycle v }
  | .minstreth => .ok { s with minstret := setHighHalf s.minstret v }
  | .mhpmcounterh _ => .ok s
  | .cycle => .ok s
  | .time => .ok s
  | .instret => .ok s
  | .hpmcounter _ => .ok s
  | .cycleh => .ok s
  | .timeh => .ok s
  | .instreth => .ok s
  | .hpmcounterh _ => .ok s
  | .mvendorid => .ok s
  | .marchid => .ok s
  | .mimpid => .ok s
  | .mhartid => .ok s

/-- A write that leaves the counter of retired instructions as written (R47). -/
def countsItself (c : Csr) : Bool := c == .minstret || c == .minstreth

/-- The end of a CSR instruction: it retires, but an instruction that wrote `minstret` or `minstreth` does not also
increment it (R47, 60_exceptions.md R345). -/
def csrRetire (c : Csr) (w : Bool) (s : State) : State :=
  if w && countsItself c then s.retireUncounted else s.retire

/-- What the six CSR instructions share (45_csr.md R200-R206): the check, the read, the write of `newVal` applied to
the value to be modified if `w`, the old value to `rd`. `inst` is the instruction's own term, whose word is the
trap value of a failed check. -/
def csrOp (inst : Instr) (rd : RegNum) (a : BitVec 12) (w : Bool) (newVal : Word → Word) (s : State) : Result :=
  match csrCheck s a w with
  | none => raiseIllegal (encode inst) s
  | some c =>
    match if w then csrWrite c (newVal (csrModifyBase c s)) s else .ok s with
    | .error r => .refused r
    | .ok s' => .next (csrRetire c w (s'.setX rd (csrRead c s)))

end Sys2Proof.Machine
end

