-- ==== Sys2Proof/Machine/CsrInstr.lean ====
section
/-! DEFINITION. The CSR instructions (45_csr.md R200-R207). -/

namespace Sys2Proof.Machine

/-- CSRRW: write `x[rs1]`, old value to `x[rd]`; always a write (R201). -/
def execCsrrw (rd : RegNum) (csr : BitVec 12) (rs1 : RegNum) (s : State) : Result :=
  csrOp (.csrrw rd csr rs1) rd csr true (fun _ => s.x rs1) s

/-- CSRRS: set the bits of `x[rs1]`; a write unless `rs1` is x0 (R202). -/
def execCsrrs (rd : RegNum) (csr : BitVec 12) (rs1 : RegNum) (s : State) : Result :=
  csrOp (.csrrs rd csr rs1) rd csr (rs1 != 0#5) (fun t => t ||| s.x rs1) s

/-- CSRRC: clear the bits of `x[rs1]`; a write unless `rs1` is x0 (R203). -/
def execCsrrc (rd : RegNum) (csr : BitVec 12) (rs1 : RegNum) (s : State) : Result :=
  csrOp (.csrrc rd csr rs1) rd csr (rs1 != 0#5) (fun t => t &&& ~~~s.x rs1) s

/-- CSRRWI: write `uimm`; always a write (R204). -/
def execCsrrwi (rd : RegNum) (csr : BitVec 12) (uimm : BitVec 5) (s : State) : Result :=
  csrOp (.csrrwi rd csr uimm) rd csr true (fun _ => uimm5 s uimm) s

/-- CSRRSI: set the bits of `uimm`; a write unless `uimm` is 0 (R205). -/
def execCsrrsi (rd : RegNum) (csr : BitVec 12) (uimm : BitVec 5) (s : State) : Result :=
  csrOp (.csrrsi rd csr uimm) rd csr (uimm != 0#5) (fun t => t ||| uimm5 s uimm) s

/-- CSRRCI: clear the bits of `uimm`; a write unless `uimm` is 0 (R206). -/
def execCsrrci (rd : RegNum) (csr : BitVec 12) (uimm : BitVec 5) (s : State) : Result :=
  csrOp (.csrrci rd csr uimm) rd csr (uimm != 0#5) (fun t => t &&& ~~~uimm5 s uimm) s

end Sys2Proof.Machine
end

