-- ==== Sys2Proof/Machine/LoadsStores.lean ====
section
/-! DEFINITION. Loads and stores (46_loads_stores.md R210-R221). -/

namespace Sys2Proof.Machine

/-- A load of `n` bytes, extended by `ext` (46_loads_stores.md R210, section Loads). A load that raises does not
write `rd`; a load to x0 still performs the access (30_encoding.md R127). -/
def load (n : Nat) (ext : Word → Word) (rd rs1 : RegNum) (imm : BitVec 12) (s : State) : Result :=
  match memRead s (effectiveAddress s rs1 imm) n with
  | .error e => raise e (effectiveAddress s rs1 imm) s
  | .ok (v, s') => .next (s'.setX rd (ext v)).retire

/-- A store of the low `n` bytes of `x[rs2]` (46_loads_stores.md R210, section Stores). A store that raises writes no
byte. -/
def store (n : Nat) (rs1 rs2 : RegNum) (imm : BitVec 12) (s : State) : Result :=
  match memWrite s (effectiveAddress s rs1 imm) n (s.x rs2) with
  | .error e => raise e (effectiveAddress s rs1 imm) s
  | .ok s' => .next s'.retire

/-- LB: `x[rd] <- sext(MemRead(ea, 1))` (R211). -/
def execLb (rd rs1 : RegNum) (imm : BitVec 12) (s : State) : Result :=
  load 1 (sextLoad 8) rd rs1 imm s

/-- LH: `x[rd] <- sext(MemRead(ea, 2))` (R212). -/
def execLh (rd rs1 : RegNum) (imm : BitVec 12) (s : State) : Result :=
  load 2 (sextLoad 16) rd rs1 imm s

/-- LW: `x[rd] <- sext(MemRead(ea, 4))` (R213). -/
def execLw (rd rs1 : RegNum) (imm : BitVec 12) (s : State) : Result :=
  load 4 (sextLoad 32) rd rs1 imm s

/-- LBU: `x[rd] <- zext(MemRead(ea, 1))` (R214). -/
def execLbu (rd rs1 : RegNum) (imm : BitVec 12) (s : State) : Result :=
  load 1 (zextLoad 8) rd rs1 imm s

/-- LHU: `x[rd] <- zext(MemRead(ea, 2))` (R215). -/
def execLhu (rd rs1 : RegNum) (imm : BitVec 12) (s : State) : Result :=
  load 2 (zextLoad 16) rd rs1 imm s

/-- LWU: `x[rd] <- zext_64(MemRead(ea, 4))`, RV64 only (R216). -/
def execLwu (rd rs1 : RegNum) (imm : BitVec 12) (s : State) : Result :=
  onlyRV64 (.lwu rd rs1 imm) (load 4 (zextLoad 32) rd rs1 imm s) s

/-- LD: `x[rd] <- MemRead(ea, 8)`, RV64 only (R217). -/
def execLd (rd rs1 : RegNum) (imm : BitVec 12) (s : State) : Result :=
  onlyRV64 (.ld rd rs1 imm) (load 8 id rd rs1 imm s) s

/-- SB: `MemWrite(ea, 1, x[rs2][7:0])` (R218). -/
def execSb (rs1 rs2 : RegNum) (imm : BitVec 12) (s : State) : Result :=
  store 1 rs1 rs2 imm s

/-- SH: `MemWrite(ea, 2, x[rs2][15:0])` (R219). -/
def execSh (rs1 rs2 : RegNum) (imm : BitVec 12) (s : State) : Result :=
  store 2 rs1 rs2 imm s

/-- SW: `MemWrite(ea, 4, x[rs2][31:0])` (R220). -/
def execSw (rs1 rs2 : RegNum) (imm : BitVec 12) (s : State) : Result :=
  store 4 rs1 rs2 imm s

/-- SD: `MemWrite(ea, 8, x[rs2])`, RV64 only (R221). -/
def execSd (rs1 rs2 : RegNum) (imm : BitVec 12) (s : State) : Result :=
  onlyRV64 (.sd rs1 rs2 imm) (store 8 rs1 rs2 imm s) s

end Sys2Proof.Machine
end

