-- ==== Sys2Proof/Machine/Logical.lean ====
section
/-! DEFINITION. The logical and compare instructions (42_logical_compare.md R170-R179). -/

namespace Sys2Proof.Machine

/-- XOR: `x[rd] <- x[rs1] XOR x[rs2]` (R170). -/
def execXor (rd rs1 rs2 : RegNum) (s : State) : Result :=
  writeAndRetire rd (s.x rs1 ^^^ s.x rs2) s

/-- XORI: `x[rd] <- x[rs1] XOR sext(imm)` (R171). -/
def execXori (rd rs1 : RegNum) (imm : BitVec 12) (s : State) : Result :=
  writeAndRetire rd (s.x rs1 ^^^ imm12 s imm) s

/-- OR: `x[rd] <- x[rs1] OR x[rs2]` (R172). -/
def execOr (rd rs1 rs2 : RegNum) (s : State) : Result :=
  writeAndRetire rd (s.x rs1 ||| s.x rs2) s

/-- ORI: `x[rd] <- x[rs1] OR sext(imm)` (R173). -/
def execOri (rd rs1 : RegNum) (imm : BitVec 12) (s : State) : Result :=
  writeAndRetire rd (s.x rs1 ||| imm12 s imm) s

/-- AND: `x[rd] <- x[rs1] AND x[rs2]` (R174). -/
def execAnd (rd rs1 rs2 : RegNum) (s : State) : Result :=
  writeAndRetire rd (s.x rs1 &&& s.x rs2) s

/-- ANDI: `x[rd] <- x[rs1] AND sext(imm)` (R175). -/
def execAndi (rd rs1 : RegNum) (imm : BitVec 12) (s : State) : Result :=
  writeAndRetire rd (s.x rs1 &&& imm12 s imm) s

/-- SLT: 1 if `signed(x[rs1]) <s signed(x[rs2])`, else 0 (R176). -/
def execSlt (rd rs1 rs2 : RegNum) (s : State) : Result :=
  writeAndRetire rd (boolWord (ltSigned s.xlen (s.x rs1) (s.x rs2))) s

/-- SLTI: 1 if `signed(x[rs1]) <s signed(sext(imm))`, else 0 (R177). -/
def execSlti (rd rs1 : RegNum) (imm : BitVec 12) (s : State) : Result :=
  writeAndRetire rd (boolWord (ltSigned s.xlen (s.x rs1) (imm12 s imm))) s

/-- SLTU: 1 if `unsigned(x[rs1]) <u unsigned(x[rs2])`, else 0 (R178). -/
def execSltu (rd rs1 rs2 : RegNum) (s : State) : Result :=
  writeAndRetire rd (boolWord (ltUnsigned s.xlen (s.x rs1) (s.x rs2))) s

/-- SLTIU: 1 if `unsigned(x[rs1]) <u unsigned(sext(imm))`, else 0; the immediate is first sign-extended (R179). -/
def execSltiu (rd rs1 : RegNum) (imm : BitVec 12) (s : State) : Result :=
  writeAndRetire rd (boolWord (ltUnsigned s.xlen (s.x rs1) (imm12 s imm))) s

end Sys2Proof.Machine
end

