-- ==== Sys2Proof/Machine/Privileged.lean ====
section
/-! DEFINITION. The privileged instructions (47_privileged.md R230-R234). -/

namespace Sys2Proof.Machine

/-- The privilege check of SRET, WFI and SFENCE.VMA: illegal in U-mode, and in S-mode when bit `gate` of `mstatus`
(TSR, TW or TVM) is 1 (47_privileged.md R234). -/
def sModeAllowed (s : State) (gate : Nat) : Bool :=
  match s.priv with
  | .u => false
  | .s => !s.mstatus.getLsbD gate
  | .m => true

/-- MRET: the return from an M-mode handler; illegal below M-mode (R230). -/
def execMret (s : State) : Result :=
  if s.priv = .m then .next s.returnM else raiseIllegal (encode .mret) s

/-- SRET: the return from an S-mode handler; illegal in U-mode, and in S-mode when TSR = 1 (R231). -/
def execSret (s : State) : Result :=
  if sModeAllowed s bitTSR then .next s.returnS else raiseIllegal (encode .sret) s

/-- WFI: retires and sets `wfi_wait`; illegal in U-mode, and in S-mode when TW = 1. The waiting itself is in
Machine/Cycle.lean (R232). -/
def execWfi (s : State) : Result :=
  if sModeAllowed s bitTW then .next { s with wfiWait := true }.retire else raiseIllegal (encode .wfi) s

/-- SFENCE.VMA: after its privilege checks a no-op, translation being Bare; illegal in U-mode, and in S-mode when TVM = 1 (R233). -/
def execSfenceVma (rs1 rs2 : RegNum) (s : State) : Result :=
  if sModeAllowed s bitTVM then .next s.retire else raiseIllegal (encode (.sfenceVma rs1 rs2)) s

end Sys2Proof.Machine
end

