-- ==== Sys2Proof/Machine/Shifts.lean ====
section
/-! DEFINITION. The shift instructions (40_shifts.md R140-R151). They raise no exception of their own. -/

namespace Sys2Proof.Machine

/-- SLL: `x[rd] <- x[rs1] << sh` (R140). -/
def execSll (rd rs1 rs2 : RegNum) (s : State) : Result :=
  writeAndRetire rd (s.x rs1 <<< shiftAmount s rs2) s

/-- The immediate shifts of both XLENs; on RV32 a word with `shamt` bit 5 set matches no row and is illegal
(30_encoding.md R125; assumption log 20). -/
def shiftImm (inst : Instr) (shamt : BitVec 6) (rd : RegNum) (v : Word) (s : State) : Result :=
  if shamtOk s.xlen shamt then writeAndRetire rd v s else raiseIllegal (encode inst) s

/-- SLLI: `x[rd] <- x[rs1] << shamt` (R141). -/
def execSlli (rd rs1 : RegNum) (shamt : BitVec 6) (s : State) : Result :=
  shiftImm (.slli rd rs1 shamt) shamt rd (s.x rs1 <<< shamt.toNat) s

/-- SRL: `x[rd] <- x[rs1] >>u sh` (R142). -/
def execSrl (rd rs1 rs2 : RegNum) (s : State) : Result :=
  writeAndRetire rd (s.x rs1 >>> shiftAmount s rs2) s

/-- SRLI: `x[rd] <- x[rs1] >>u shamt` (R143). -/
def execSrli (rd rs1 : RegNum) (shamt : BitVec 6) (s : State) : Result :=
  shiftImm (.srli rd rs1 shamt) shamt rd (s.x rs1 >>> shamt.toNat) s

/-- SRA: `x[rd] <- x[rs1] >>s sh` (R144). -/
def execSra (rd rs1 rs2 : RegNum) (s : State) : Result :=
  writeAndRetire rd (sraX s.xlen (s.x rs1) (shiftAmount s rs2)) s

/-- SRAI: `x[rd] <- x[rs1] >>s shamt` (R145). -/
def execSrai (rd rs1 : RegNum) (shamt : BitVec 6) (s : State) : Result :=
  shiftImm (.srai rd rs1 shamt) shamt rd (sraX s.xlen (s.x rs1) shamt.toNat) s

/-- SLLW: `x[rd] <- sext((x[rs1][31:0] << sh)[31:0])` (R146). -/
def execSllw (rd rs1 rs2 : RegNum) (s : State) : Result :=
  writeW (.sllw rd rs1 rs2) rd (low32 (s.x rs1) <<< shiftAmountW s rs2) s

/-- SLLIW: `x[rd] <- sext((x[rs1][31:0] << shamt)[31:0])` (R147). -/
def execSlliw (rd rs1 : RegNum) (shamt : BitVec 5) (s : State) : Result :=
  writeW (.slliw rd rs1 shamt) rd (low32 (s.x rs1) <<< shamt.toNat) s

/-- SRLW: `x[rd] <- sext(x[rs1][31:0] >>u sh)` (R148). -/
def execSrlw (rd rs1 rs2 : RegNum) (s : State) : Result :=
  writeW (.srlw rd rs1 rs2) rd (low32 (s.x rs1) >>> shiftAmountW s rs2) s

/-- SRLIW: `x[rd] <- sext(x[rs1][31:0] >>u shamt)` (R149). -/
def execSrliw (rd rs1 : RegNum) (shamt : BitVec 5) (s : State) : Result :=
  writeW (.srliw rd rs1 shamt) rd (low32 (s.x rs1) >>> shamt.toNat) s

/-- SRAW: `x[rd] <- sext(x[rs1][31:0] >>s sh)` (R150). -/
def execSraw (rd rs1 rs2 : RegNum) (s : State) : Result :=
  writeW (.sraw rd rs1 rs2) rd ((low32 (s.x rs1)).sshiftRight (shiftAmountW s rs2)) s

/-- SRAIW: `x[rd] <- sext(x[rs1][31:0] >>s shamt)` (R151). -/
def execSraiw (rd rs1 : RegNum) (shamt : BitVec 5) (s : State) : Result :=
  writeW (.sraiw rd rs1 shamt) rd ((low32 (s.x rs1)).sshiftRight shamt.toNat) s

end Sys2Proof.Machine
end

