-- ==== Sys2Proof/Machine/Synch.lean ====
section
/-! DEFINITION. Synchronisation and environment instructions (44_synch_environment.md R190-R193). -/

namespace Sys2Proof.Machine

/-- FENCE: the two sets go to the event history; no other architectural effect on one hart. `fm`, `rs1` and `rd` are
ignored (30_encoding.md R126) (R190). -/
def execFence (_fm pred succ : BitVec 4) (_rs1 _rd : RegNum) (s : State) : Result :=
  .next { s with ioHistory := s.ioHistory ++ [IoEvent.fence pred succ] }.retire

/-- FENCE.I: `stale_fetch <- ∅`. `imm`, `rs1` and `rd` are ignored (30_encoding.md R126) (R191). -/
def execFenceI (_imm : BitVec 12) (_rs1 _rd : RegNum) (s : State) : Result :=
  .next { s with staleFetch := [] }.retire

/-- The exception ECALL raises in a mode (44_synch_environment.md R192). -/
def ecallExc : Priv → Exc
  | .u => .ecallU
  | .s => .ecallS
  | .m => .ecallM

/-- ECALL: raises the environment call of the mode, trap value 0; never retires (R192). -/
def execEcall (s : State) : Result :=
  raise (ecallExc s.priv) 0 s

/-- EBREAK: raises Breakpoint; the trap value is the open draw `EBREAK_TVAL`, 0 or the address of the EBREAK
(assumption log 12); never retires (R193). -/
def execEbreak (s : State) : Result :=
  raise .breakpoint (if s.draw.ebreakTvalPc then s.pc else 0) s

end Sys2Proof.Machine
end

