-- ==== Sys2Proof/Machine/Interrupts.lean ====
section
/-! DEFINITION. Sampling the platform's inputs and choosing whether an interrupt is taken (00_scope.md R15 steps 1 and 2,
60_exceptions.md R331-R333, R345, R346). -/

namespace Sys2Proof.Machine

/-- The draw of the coming step: the next one laid down, else the free value (assumption log 7). -/
def State.nextDraw (s : State) : Draw :=
  match s.script with
  | d :: _ => d
  | [] => Config.freeDraw s.drawIndex

/-- `ext` after sampling a draw: the lines are level inputs, `mtime` advances (R331, R346). -/
def sampledExt (old : ExtInputs) (d : Draw) : ExtInputs where
  meip := d.meip
  seipExt := d.seipExt
  mtip := d.mtip
  msip := d.msip
  mtime := old.mtime + d.mtimeAdvance

/-- Step (1) of R15 with a given draw: `ext` is sampled and `mcycle` advances by at least one cycle (R331, R345). -/
def State.sampleWith (s : State) (d : Draw) : State :=
  { s with
    draw := d
    script := s.script.tail
    drawIndex := s.drawIndex + 1
    ext := sampledExt s.ext d
    mcycle := s.mcycle + BitVec.ofNat 64 (d.extraCycles.val + 1) }

/-- Step (1) of R15. -/
def State.sample (s : State) : State := s.sampleWith s.nextDraw

/-- Whether interrupt `i` is takeable (60_exceptions.md R332). The enable is looked at before the pending bit. -/
def takeable (s : State) (i : Interrupt) : Bool :=
  s.mie.getLsbD i.code &&
    (s.mip.getLsbD i.code &&
      if s.mideleg.getLsbD i.code then
        match s.priv with
        | .u => true
        | .s => s.mstatus.getLsbD bitSIE
        | .m => false
      else
        match s.priv with
        | .u => true
        | .s => true
        | .m => s.mstatus.getLsbD bitMIE)

/-- The order among interrupts for the same mode: MEI, MSI, MTI, SEI, SSI, STI (60_exceptions.md R333). -/
def interruptOrder : List Interrupt := [.mei, .msi, .mti, .sei, .ssi, .sti]

/-- The takeable interrupts, highest priority first: those for M-mode before those for S-mode (R333). -/
def takeableList (s : State) : List Interrupt :=
  (interruptOrder.filter fun i => takeable s i && !s.mideleg.getLsbD i.code) ++
    (interruptOrder.filter fun i => takeable s i && s.mideleg.getLsbD i.code)

/-- For how many steps an interrupt that is takeable now may still be held off: one less than at the step before, or
the draw's number when it has just become takeable (R333; assumption log 9). -/
def delayLeft (old : List (Interrupt × Nat)) (fresh : Nat) (i : Interrupt) : Nat :=
  match old.lookup i with
  | some k => k - 1
  | none => fresh

/-- The takeable interrupts with the number of steps each may still be held off. -/
def delays (s : State) (l : List Interrupt) : List (Interrupt × Nat) :=
  l.map fun i => (i, delayLeft s.postponed s.draw.interruptDelay i)

/-- Step (2) of R15: the interrupt taken at this step, if one is. None is taken while every takeable one may still be
held off; otherwise the one of highest priority is (R333). -/
def interruptNow (s : State) : Option Interrupt :=
  let l := takeableList s
  if ((delays s l).any fun p => p.2 == 0) = true then l.head? else none

/-- The state in which the instruction at `pc` runs when no interrupt is taken: what is held off is remembered. -/
def State.holdOff (s : State) : State :=
  { s with postponed := delays s (takeableList s) }

/-- The state after taking interrupt `i`: nothing is held off any more. -/
def State.interrupted (s : State) (i : Interrupt) : State :=
  { s with postponed := [] }.takeInterrupt i

/-- Whether a hart waiting in WFI must or does wake at this step (47_privileged.md R232; assumption log 10). -/
def wakes (s : State) : Bool := s.mip &&& s.mie != 0 || s.draw.wake

end Sys2Proof.Machine
end

