-- ==== Sys2Proof/Machine/Cycle.lean ====
section
/-! DEFINITION. One hart step (00_scope.md R15): what follows the sampling. -/

namespace Sys2Proof.Machine

/-- The word at `pc` fetched: decoded and executed, or illegal with the word as trap value (30_encoding.md R125). -/
def runWord (w : InstrWord) (s : State) : Result :=
  match decode s.xlen w with
  | .ok i => exec i s
  | .error _ => raiseIllegal w s

/-- Steps (3) and (4) of R15: fetch, decode, execute (20_memory.md R92, R101). The fetch comes first
(60_exceptions.md R310). -/
def fetchAndRun (s : State) : Result :=
  match fetch s with
  | .word w => runWord w s
  | .accessFault => raise .instrAccessFault s.pc s
  | .stale => .refused .staleFetch
  | .misaligned => .fault .misalignedPc

/-- Steps (2) to (4) of R15 for a hart that is not waiting: an interrupt, or the instruction at `pc`. -/
def runActive (s : State) : Result :=
  match interruptNow s with
  | some i => .next (s.interrupted i)
  | none => fetchAndRun s.holdOff

/-- A hart in WFI that stays there: an idle step executes nothing (47_privileged.md R232). -/
def State.idle (s : State) : State := { s with postponed := [] }

/-- Steps (2) to (4) of R15 after sampling: a waiting hart idles or wakes and goes on (47_privileged.md R232). -/
def runSampled (s : State) : Result :=
  if s.wfiWait then
    if wakes s then runActive { s with wfiWait := false } else .next s.idle
  else runActive s

/-- One hart step (R15). -/
def hartStep (s : State) : Result := runSampled s.sample

/-- Bytes of a word put into memory at `a` from outside the machine, as a loader does before a run. -/
def placeWord (s : State) (a : Nat) (w : InstrWord) : State :=
  { s with
    mem := writeBytes s.mem a 4 (w.setWidth 64)
    staleFetch := s.staleFetch.filter fun k => decide (k < a) || decide (a + 4 ≤ k) }

end Sys2Proof.Machine
end

