-- ==== Sys2Proof/Machine/Step.lean ====
section
/-! DEFINITION. The step of the machine, and how a word is put where the next step fetches. -/

namespace Sys2Proof.Machine

/-- One step of the machine: one hart step (00_scope.md R15). -/
def step (s : State) : Host.Outcome State Fault Refusal := hartStep s

/-- `s` with the instruction whose bits are `w` stored at `pc`, where the next step fetches, as part of the loaded
program (not stale), and the hart not waiting (assumption log 18). -/
def State.withFetchWord (s : State) (nbits w : Nat) : State :=
  { placeWord s s.pc.toNat (BitVec.ofNat 32 (w % 2 ^ nbits)) with wfiWait := false }

end Sys2Proof.Machine
end

