-- ==== Sys2Proof/Machine/Pseudo.lean ====
section
/-! DEFINITION. The assembler's pseudo-instructions and their expansions (48_pseudo_and_calling_convention.md R240-R245).
The hardware never sees them: each is a name for base instructions. -/

namespace Sys2Proof.Pseudo

/-- `BEQZ rs,imm` (R241). -/
def beqz (rs : RegNum) (off : BitVec 13) : Instr := .beq rs 0 off

/-- `MV rd,rs` (R242). -/
def mv (rd rs : RegNum) : Instr := .addi rd rs 0

/-- `J imm` (R243). -/
def j (off : BitVec 21) : Instr := .jal 0 off

/-- `RET` (R244, 90_conflicts.md C1). -/
def ret : Instr := .jalr 0 1 0

/-- `NOP` (R245, 30_encoding.md R127). -/
def nop : Instr := .addi 0 0 0

/-- `LI rd,imm` for a constant of 12 signed bits (R245). -/
def liShort (rd : RegNum) (imm : BitVec 12) : Instr := .addi rd 0 imm

/-- `LI rd,imm` for a 32-bit constant (R245). -/
def li (rd : RegNum) (imm : BitVec 32) : List Instr :=
  [.lui rd ((imm + 0x800).extractLsb' 12 20), .addi rd rd (imm.extractLsb' 0 12)]

/-- `NOT rd,rs` (R245). -/
def not (rd rs : RegNum) : Instr := .xori rd rs (-1)

/-- `NEG rd,rs` (R245). -/
def neg (rd rs : RegNum) : Instr := .sub rd 0 rs

/-- `NEGW rd,rs` (R245). -/
def negw (rd rs : RegNum) : Instr := .subw rd 0 rs

/-- `SEXT.W rd,rs` (R245). -/
def sextW (rd rs : RegNum) : Instr := .addiw rd rs 0

/-- `SEQZ rd,rs` (R245). -/
def seqz (rd rs : RegNum) : Instr := .sltiu rd rs 1

/-- `SNEZ rd,rs` (R245). -/
def snez (rd rs : RegNum) : Instr := .sltu rd 0 rs

/-- `SLTZ rd,rs` (R245). -/
def sltz (rd rs : RegNum) : Instr := .slt rd rs 0

/-- `SGTZ rd,rs` (R245). -/
def sgtz (rd rs : RegNum) : Instr := .slt rd 0 rs

/-- `BNEZ rs,off` (R245). -/
def bnez (rs : RegNum) (off : BitVec 13) : Instr := .bne rs 0 off

/-- `BLEZ rs,off` (R245). -/
def blez (rs : RegNum) (off : BitVec 13) : Instr := .bge 0 rs off

/-- `BGEZ rs,off` (R245). -/
def bgez (rs : RegNum) (off : BitVec 13) : Instr := .bge rs 0 off

/-- `BLTZ rs,off` (R245). -/
def bltz (rs : RegNum) (off : BitVec 13) : Instr := .blt rs 0 off

/-- `BGTZ rs,off` (R245). -/
def bgtz (rs : RegNum) (off : BitVec 13) : Instr := .blt 0 rs off

/-- `BGT rs,rt,off` (R245). -/
def bgt (rs rt : RegNum) (off : BitVec 13) : Instr := .blt rt rs off

/-- `BLE rs,rt,off` (R245). -/
def ble (rs rt : RegNum) (off : BitVec 13) : Instr := .bge rt rs off

/-- `BGTU rs,rt,off` (R245). -/
def bgtu (rs rt : RegNum) (off : BitVec 13) : Instr := .bltu rt rs off

/-- `BLEU rs,rt,off` (R245). -/
def bleu (rs rt : RegNum) (off : BitVec 13) : Instr := .bgeu rt rs off

/-- `JAL off` (R245). -/
def jal (off : BitVec 21) : Instr := .jal 1 off

/-- `JR rs` (R245). -/
def jr (rs : RegNum) : Instr := .jalr 0 rs 0

/-- `JALR rs` (R245). -/
def jalr (rs : RegNum) : Instr := .jalr 1 rs 0

/-- `CALL off` (R245). -/
def call (off : BitVec 32) : List Instr :=
  [.auipc 1 ((off + 0x800).extractLsb' 12 20), .jalr 1 1 (off.extractLsb' 0 12)]

/-- `TAIL off` (R245). -/
def tail (off : BitVec 32) : List Instr :=
  [.auipc 6 ((off + 0x800).extractLsb' 12 20), .jalr 0 6 (off.extractLsb' 0 12)]

/-- `LA rd,sym`, not position-independent, with the distance to the symbol (R245). -/
def la (rd : RegNum) (off : BitVec 32) : List Instr :=
  [.auipc rd ((off + 0x800).extractLsb' 12 20), .addi rd rd (off.extractLsb' 0 12)]

/-- `CSRR rd,csr` (R245). -/
def csrr (rd : RegNum) (csr : BitVec 12) : Instr := .csrrs rd csr 0

/-- `CSRW csr,rs` (R245). -/
def csrw (csr : BitVec 12) (rs : RegNum) : Instr := .csrrw 0 csr rs

/-- `CSRS csr,rs` (R245). -/
def csrs (csr : BitVec 12) (rs : RegNum) : Instr := .csrrs 0 csr rs

/-- `CSRC csr,rs` (R245). -/
def csrc (csr : BitVec 12) (rs : RegNum) : Instr := .csrrc 0 csr rs

/-- `CSRWI csr,uimm` (R245). -/
def csrwi (csr : BitVec 12) (uimm : BitVec 5) : Instr := .csrrwi 0 csr uimm

/-- `CSRSI csr,uimm` (R245). -/
def csrsi (csr : BitVec 12) (uimm : BitVec 5) : Instr := .csrrsi 0 csr uimm

/-- `CSRCI csr,uimm` (R245). -/
def csrci (csr : BitVec 12) (uimm : BitVec 5) : Instr := .csrrci 0 csr uimm

/-- `RDCYCLE rd`, `RDTIME rd`, `RDINSTRET rd` by their CSR address, and the RV32 halves (R245). -/
def rdcounter (rd : RegNum) (csr : BitVec 12) : Instr := .csrrs rd csr 0

/-- `FENCE` with no operands is `FENCE iorw,iorw` (R245). -/
def fence : Instr := .fence 0 0xF 0xF 0 0

end Sys2Proof.Pseudo
end

