-- ==== Sys2Proof/Safety.lean ====
section
/-! DEFINITION. What counts as a legal state and as the end of a run, in the terms the statements use. -/

namespace Sys2Proof.Machine

/-- A value of XLEN bits (10_state.md R20, R28). -/
abbrev isXlen (xl : Xlen) (v : Word) : Prop := narrow xl v = v

/-- Bits [1:0] are 0 (10_state.md R22, R42). -/
abbrev low2Zero (v : Word) : Prop := v.extractLsb' 0 2 = 0#2

/-- x0 holds 0 and every register holds XLEN bits (10_state.md R20). -/
abbrev State.RegsOk (s : State) : Prop :=
  s.regs.get 0 = 0 ∧ ∀ r : Fin 32, isXlen s.xlen (s.regs.get r)

/-- `pc` is an XLEN-bit multiple of 4 (10_state.md R22). -/
abbrev State.PcOk (s : State) : Prop := isXlen s.xlen s.pc ∧ low2Zero s.pc

/-- Memory is in canonical form and every byte it lists belongs to a `main` region (10_state.md R26). -/
abbrev State.MemOk (s : State) : Prop :=
  s.mem.wf = true ∧ ∀ p ∈ s.mem, s.platform.isMain p.1 = true

/-- `stale_fetch` lists rising addresses (10_state.md R27). -/
abbrev State.StaleOk (s : State) : Prop := s.staleFetch.Pairwise fun a b => a < b

/-- `mstatus` holds its writable bits only, and a legal MPP (10_state.md R30). -/
abbrev State.MstatusOk (s : State) : Prop :=
  s.mstatus &&& ~~~mstatusMask = 0 ∧ s.mstatus.extractLsb' 11 2 ≠ 2#2

/-- The exception registers of both modes (10_state.md R42-R44). -/
abbrev State.TrapRegsOk (s : State) : Prop :=
  (isXlen s.xlen s.mepc ∧ low2Zero s.mepc) ∧ (isXlen s.xlen s.sepc ∧ low2Zero s.sepc) ∧
    isXlen s.xlen s.mcause ∧ isXlen s.xlen s.scause ∧ isXlen s.xlen s.mtval ∧ isXlen s.xlen s.stval

/-- The vector bases: bit 1 is 0 (10_state.md R39, R40). -/
abbrev State.VectorsOk (s : State) : Prop :=
  (isXlen s.xlen s.mtvec ∧ s.mtvec.getLsbD 1 = false) ∧ (isXlen s.xlen s.stvec ∧ s.stvec.getLsbD 1 = false)

/-- The masks of the delegation, enable and counter-enable registers, and the scratch registers
(10_state.md R34-R36, R41, R45). -/
abbrev State.MasksOk (s : State) : Prop :=
  s.medeleg &&& ~~~0xB3FF = 0 ∧ s.mideleg &&& ~~~sInterruptMask = 0 ∧ s.mie &&& ~~~0xAAA = 0 ∧
    s.mcounteren &&& ~~~0x7 = 0 ∧ s.scounteren &&& ~~~0x7 = 0 ∧
    isXlen s.xlen s.mscratch ∧ isXlen s.xlen s.sscratch

/-- The invariant of the machine: what 10_state.md says of the values its registers can hold. -/
abbrev State.Inv (s : State) : Prop :=
  s.RegsOk ∧ s.PcOk ∧ s.MemOk ∧ s.StaleOk ∧ s.MstatusOk ∧ s.TrapRegsOk ∧ s.VectorsOk ∧ s.MasksOk

/-- The end of a run (92_eei_decisions.md D18): `HaltCondition` is a predicate the reader chooses. The run goes on
for at most `fuel` steps and stops at the first state that meets it (assumption log 22). -/
def runUntil (halt : State → Bool) : Nat → State → Result
  | 0, s => .next s
  | fuel + 1, s =>
    if halt s then .next s
    else
      match step s with
      | .next t => runUntil halt fuel t
      | .fault r => .fault r
      | .refused r => .refused r

/-- What a run hands back (92_eei_decisions.md, host table): the event history of `io` accesses. -/
def State.history (s : State) : List IoEvent := s.ioHistory

end Sys2Proof.Machine
end

