-- ==== Sys2Proof/Certificates/Slice0/Obligations.lean ====
section
/-! DEFINITION. The statements for the provers, and the words they are written in. Values are stated as numbers: a
register as a natural number below 2^XLEN, its signed reading as an integer. -/

namespace Sys2Proof.Claims

open Sys2Proof.Machine

/-! ## Numbers -/

/-- 2^XLEN. -/
def modulus (s : State) : Nat := 2 ^ s.xlen.bits

/-- `signed(v)` of an XLEN-bit value (00_scope.md R10). -/
def asSigned (s : State) (v : Word) : Int := Int.bmod v.toNat (modulus s)

/-- `zext(v)` is the number itself; this is the XLEN-bit number congruent to an integer. -/
def wrap (s : State) (k : Int) : Nat := (k % (modulus s : Int)).toNat

/-- `(pc + 4) mod 2^XLEN`. -/
def pcPlus4 (s : State) : Nat := (s.pc.toNat + 4) % modulus s

/-- The fields of an instruction word outside the operands: the word under the row's mask is the row's match value
(30_encoding.md R120). -/
def Coded (i : Instr) (matchBits mask : InstrWord) : Prop := encode i &&& mask = matchBits

/-! ## Frames -/

/-- The status register, the exception registers and every other control register hold what they held, and no trap vector
has newly been written; `minstret` is not among them. -/
structure SameControl (s t : State) : Prop where
  mstatus : t.mstatus = s.mstatus
  medeleg : t.medeleg = s.medeleg
  mideleg : t.mideleg = s.mideleg
  mie : t.mie = s.mie
  mtvec : t.mtvec = s.mtvec
  mcounteren : t.mcounteren = s.mcounteren
  mscratch : t.mscratch = s.mscratch
  mepc : t.mepc = s.mepc
  mcause : t.mcause = s.mcause
  mtval : t.mtval = s.mtval
  stvec : t.stvec = s.stvec
  scounteren : t.scounteren = s.scounteren
  sscratch : t.sscratch = s.sscratch
  sepc : t.sepc = s.sepc
  scause : t.scause = s.scause
  stval : t.stval = s.stval
  mcycle : t.mcycle = s.mcycle
  seipSw : t.seipSw = s.seipSw
  ssip : t.ssip = s.ssip
  stip : t.stip = s.stip
  mtvecWritten : t.mtvecWritten = s.mtvecWritten
  stvecWritten : t.stvecWritten = s.stvecWritten

/-- The parameters, the sampled inputs and the model's own fields hold what they held. -/
structure SameOutside (s t : State) : Prop where
  platform : t.platform = s.platform
  ext : t.ext = s.ext
  draw : t.draw = s.draw
  script : t.script = s.script
  drawIndex : t.drawIndex = s.drawIndex
  postponed : t.postponed = s.postponed

/-- Every byte of memory reads as it did. -/
def SameBytes (s t : State) : Prop := ∀ a, memByte t.mem a = memByte s.mem a

/-- Every general register reads as it did, but for `rd`. -/
def OtherRegs (s t : State) (rd : RegNum) : Prop := ∀ q, q ≠ rd → t.x q = s.x q

/-- Every general register reads as it did. -/
def SameRegs (s t : State) : Prop := ∀ q, t.x q = s.x q

/-- Nothing changed but general registers, `pc` and `minstret`. -/
structure Plain (s t : State) : Prop where
  control : SameControl s t
  outside : SameOutside s t
  bytes : SameBytes s t
  priv : t.priv = s.priv
  wfiWait : t.wfiWait = s.wfiWait
  stale : t.staleFetch = s.staleFetch
  history : t.ioHistory = s.ioHistory

/-- `pc <- pc + 4`, and `minstret` counts the instruction (60_exceptions.md R345). -/
def GoesOn (s t : State) : Prop := t.pc.toNat = pcPlus4 s ∧ t.minstret = s.minstret + 1

/-- `i` runs to a next state that differs in `x[rd]`, `pc` and `minstret` alone; `x[rd]` reads a value with property
`P` unless `rd` is x0, which stays 0. -/
def WritesRd (i : Instr) (s : State) (rd : RegNum) (P : Word → Prop) : Prop :=
  ∃ t, exec i s = .next t ∧ (rd ≠ 0#5 → P (t.x rd)) ∧ t.x 0#5 = 0 ∧ OtherRegs s t rd ∧ GoesOn s t ∧ Plain s t

/-! ## Traps (60_exceptions.md R320-R324) -/

/-- The mode an exception goes to (R321). -/
def excTarget (s : State) (e : Exc) : Priv :=
  if s.priv ≠ .m ∧ s.medeleg.getLsbD e.code = true then .s else .m

/-- The mode an interrupt goes to (R321). -/
def intTarget (s : State) (i : Interrupt) : Priv := if s.mideleg.getLsbD i.code = true then .s else .m

/-- `(Interrupt << (XLEN-1)) | code` as a number (R322). -/
def causeNat (s : State) (isInterrupt : Bool) (code : Nat) : Nat :=
  (if isInterrupt then 2 ^ (s.xlen.bits - 1) else 0) + code

/-- `TrapVector` as a number (R324). -/
def vectorNat (s : State) (tvec : Word) (isInterrupt : Bool) (code : Nat) : Nat :=
  if tvec.toNat % 4 = 1 ∧ isInterrupt = true then (tvec.toNat - tvec.toNat % 4 + 4 * code) % modulus s
  else tvec.toNat - tvec.toNat % 4

/-- What no trap entry changes (R320): general registers, memory, stale bytes, the other control registers and the
counters. -/
structure TrapLeaves (s t : State) : Prop where
  regs : SameRegs s t
  bytes : SameBytes s t
  stale : t.staleFetch = s.staleFetch
  history : t.ioHistory = s.ioHistory
  platform : t.platform = s.platform
  ext : t.ext = s.ext
  mie : t.mie = s.mie
  mideleg : t.mideleg = s.mideleg
  medeleg : t.medeleg = s.medeleg
  mtvec : t.mtvec = s.mtvec
  stvec : t.stvec = s.stvec
  mscratch : t.mscratch = s.mscratch
  sscratch : t.sscratch = s.sscratch
  mcounteren : t.mcounteren = s.mcounteren
  scounteren : t.scounteren = s.scounteren
  seipSw : t.seipSw = s.seipSw
  ssip : t.ssip = s.ssip
  stip : t.stip = s.stip
  mcycle : t.mcycle = s.mcycle
  minstret : t.minstret = s.minstret
  mtvecWritten : t.mtvecWritten = s.mtvecWritten
  stvecWritten : t.stvecWritten = s.stvecWritten

/-- Entry to M-mode (R322): MPIE takes MIE, MIE is 0, MPP is the old mode, every other bit of `mstatus` stays. -/
structure EntersM (s t : State) (isInterrupt : Bool) (code : Nat) (tval : Nat) : Prop where
  epc : t.mepc = s.pc
  cause : t.mcause.toNat = causeNat s isInterrupt code
  tval : t.mtval.toNat = tval
  status : ∀ k, k < 64 → t.mstatus.getLsbD k =
    if k = 7 then s.mstatus.getLsbD 3 else if k = 3 then false else if k = 11 then decide (s.priv ≠ .u)
      else if k = 12 then decide (s.priv = .m) else s.mstatus.getLsbD k
  priv : t.priv = .m
  pc : t.pc.toNat = vectorNat s s.mtvec isInterrupt code
  wait : t.wfiWait = false
  sepc : t.sepc = s.sepc
  scause : t.scause = s.scause
  stval : t.stval = s.stval
  leaves : TrapLeaves s t

/-- Entry to S-mode (R323): SPIE takes SIE, SIE is 0, SPP is 1 from S-mode and 0 from U-mode, every other bit of
`mstatus` stays. -/
structure EntersS (s t : State) (isInterrupt : Bool) (code : Nat) (tval : Nat) : Prop where
  epc : t.sepc = s.pc
  cause : t.scause.toNat = causeNat s isInterrupt code
  tval : t.stval.toNat = tval
  status : ∀ k, k < 64 → t.mstatus.getLsbD k =
    if k = 5 then s.mstatus.getLsbD 1 else if k = 1 then false else if k = 8 then decide (s.priv = .s)
      else s.mstatus.getLsbD k
  priv : t.priv = .s
  pc : t.pc.toNat = vectorNat s s.stvec isInterrupt code
  wait : t.wfiWait = false
  mepc : t.mepc = s.mepc
  mcause : t.mcause = s.mcause
  mtval : t.mtval = s.mtval
  leaves : TrapLeaves s t

/-- `t` is `s` after the exception `e` with its trap value: entered in the mode R321 names. -/
def Raised (s t : State) (e : Exc) (tval : Nat) : Prop :=
  (excTarget s e = .m → EntersM s t false e.code tval) ∧ (excTarget s e = .s → EntersS s t false e.code tval)

/-- `t` is `s` after interrupt `i`: trap value 0, entered in the mode R321 names. -/
def Interrupted (s t : State) (i : Interrupt) : Prop :=
  (intTarget s i = .m → EntersM s t true i.code 0) ∧ (intTarget s i = .s → EntersS s t true i.code 0)

/-- Software has written the trap vector of the mode the exception goes to (70_reset_and_hazards.md R362). -/
def VectorWritten (s : State) (e : Exc) : Prop :=
  (excTarget s e = .m → s.mtvecWritten = true) ∧ (excTarget s e = .s → s.stvecWritten = true)

/-- The answer to the exception `e` raised in `s`: it is taken; before software has written the vector it would go through it
is refused and no vector is picked (70_reset_and_hazards.md R362, U23 of 93_implementation_defined.md). -/
def TakesException (answer : Result) (s : State) (e : Exc) (tval : Nat) : Prop :=
  (VectorWritten s e → ∃ t, answer = .next t ∧ Raised s t e tval) ∧
    (¬VectorWritten s e → answer = .refused .vectorUnwritten)

/-- `i` raises the exception `e`. -/
def Traps (i : Instr) (s : State) (e : Exc) (tval : Nat) : Prop := TakesException (exec i s) s e tval

/-- `i` raises IllegalInstruction with its own word as trap value (60_exceptions.md R302). -/
def TrapsIllegal (i : Instr) (s : State) : Prop := Traps i s .illegalInstr (encode i).toNat

/-! ## Operands -/

/-- The I-immediate as an XLEN-bit number: bit 11 is copied upward (30_encoding.md R113). -/
def immBit (imm : BitVec 12) (k : Nat) : Bool := if k < 12 then imm.getLsbD k else imm.getLsbD 11

/-- The U-immediate as an integer: the field with twelve zeros below, sign-extended from bit 31 (R113). -/
def upper (imm : BitVec 20) : Int := Int.bmod (imm.toNat * 4096) (2 ^ 32)

/-- The amount of a register shift: the low log2(XLEN) bits of the register (40_shifts.md R140). -/
def amount (s : State) (r : RegNum) : Nat := (s.x r).toNat % s.xlen.bits

/-- The low 32 bits of a register as a number. -/
def low (s : State) (r : RegNum) : Nat := (s.x r).toNat % 2 ^ 32

/-- The target of a branch or of JAL (43_branches_jumps.md R180). -/
def relative (s : State) {n : Nat} (off : BitVec n) : Nat := wrap s (s.pc.toNat + off.toInt)

/-- The target of JALR: the sum with bit 0 cleared (43_branches_jumps.md R188). -/
def viaRegister (s : State) (rs1 : RegNum) (imm : BitVec 12) : Nat :=
  wrap s ((s.x rs1).toNat + imm.toInt) - wrap s ((s.x rs1).toNat + imm.toInt) % 2

/-- A branch with condition `cond` (43_branches_jumps.md R180): not taken it goes on, whatever its offset; taken to an
aligned target it goes there; nothing else changes but `minstret`. Taken to another target it raises
InstructionAddressMisaligned with the target as trap value. -/
def BranchLaw (i : Instr) (s : State) (off : BitVec 13) (cond : Prop) : Prop :=
  (¬cond → ∃ t, exec i s = .next t ∧ SameRegs s t ∧ GoesOn s t ∧ Plain s t) ∧
    (cond → relative s off % 4 = 0 →
      ∃ t, exec i s = .next t ∧ SameRegs s t ∧ t.pc.toNat = relative s off ∧ t.minstret = s.minstret + 1 ∧
        Plain s t) ∧
    (cond → relative s off % 4 ≠ 0 → Traps i s .instrAddrMisaligned (relative s off))

/-- A jump to `target`: if that is aligned, `x[rd]` is the address of the next instruction in memory and `pc` is the
target; if not, it raises InstructionAddressMisaligned with the target as trap value (R180). -/
def JumpLaw (i : Instr) (s : State) (rd : RegNum) (target : Nat) : Prop :=
  (target % 4 = 0 →
    ∃ t, exec i s = .next t ∧ (rd ≠ 0#5 → (t.x rd).toNat = pcPlus4 s) ∧ OtherRegs s t rd ∧ t.pc.toNat = target ∧
      t.minstret = s.minstret + 1 ∧ Plain s t) ∧
    (target % 4 ≠ 0 → Traps i s .instrAddrMisaligned target)

/-! ## Memory -/

/-- The value of the `n` bytes at `a`, the lowest address least significant (20_memory.md R82). -/
def bytesAt (m : Memory) (a : Nat) : Nat → Nat
  | 0 => 0
  | n + 1 => bytesAt m a n + (memByte m (a + n)).toNat * 256 ^ n

/-- The effective address of a load or store as a number (46_loads_stores.md R210). -/
def addr (s : State) (rs1 : RegNum) (imm : BitVec 12) : Nat := (effectiveAddress s rs1 imm).toNat

/-- The `n` bytes at `a` lie in one region of the kind that may be read. -/
def Readable (s : State) (a n : Nat) (k : RegionKind) : Prop :=
  ∃ r, s.platform.regionAt a n = some r ∧ r.r = true ∧ r.kind = k

/-- The `n` bytes at `a` lie in one region of the kind that may be written. -/
def Writable (s : State) (a n : Nat) (k : RegionKind) : Prop :=
  ∃ r, s.platform.regionAt a n = some r ∧ r.w = true ∧ r.kind = k

/-- No region that may be read holds the `n` bytes at `a`. -/
def Unreadable (s : State) (a n : Nat) : Prop := ∀ r, s.platform.regionAt a n = some r → r.r = false

/-- No region that may be written holds the `n` bytes at `a`. -/
def Unwritable (s : State) (a n : Nat) : Prop := ∀ r, s.platform.regionAt a n = some r → r.w = false

/-- The exceptions of a load of `n` bytes, misalignment first (20_memory.md R84, R90, 60_exceptions.md R310). -/
def LoadTraps (i : Instr) (s : State) (a n : Nat) : Prop :=
  (a % n ≠ 0 → Traps i s .loadAddrMisaligned a) ∧ (a % n = 0 → Unreadable s a n → Traps i s .loadAccessFault a)

/-- The exceptions of a store of `n` bytes, misalignment first (20_memory.md R84, R91, 60_exceptions.md R310). -/
def StoreTraps (i : Instr) (s : State) (a n : Nat) : Prop :=
  (a % n ≠ 0 → Traps i s .storeAddrMisaligned a) ∧ (a % n = 0 → Unwritable s a n → Traps i s .storeAccessFault a)

/-- A load of `n` bytes from a `main` region: `x[rd]` reads the value of the bytes, with its sign when `signed`. -/
def LoadMain (i : Instr) (s : State) (rd rs1 : RegNum) (imm : BitVec 12) (n : Nat) (signed : Bool) : Prop :=
  addr s rs1 imm % n = 0 → Readable s (addr s rs1 imm) n .main →
    WritesRd i s rd fun v =>
      if signed then asSigned s v = Int.bmod (bytesAt s.mem (addr s rs1 imm) n) (2 ^ (8 * n))
      else v.toNat = bytesAt s.mem (addr s rs1 imm) n

/-- A load of `n` bytes from an `io` region: the platform gives some n-byte value, which the access records last and
`x[rd]` reads (20_memory.md R87). -/
def LoadIo (i : Instr) (s : State) (rd rs1 : RegNum) (imm : BitVec 12) (n : Nat) (signed : Bool) : Prop :=
  addr s rs1 imm % n = 0 → Readable s (addr s rs1 imm) n .io →
    ∃ t v, exec i s = .next t ∧ v.toNat < 2 ^ (8 * n) ∧
      t.ioHistory = s.ioHistory ++ [.read (effectiveAddress s rs1 imm) n v] ∧
      (rd ≠ 0#5 →
        if signed then asSigned s (t.x rd) = Int.bmod v.toNat (2 ^ (8 * n)) else (t.x rd).toNat = v.toNat) ∧
      OtherRegs s t rd ∧ GoesOn s t ∧ SameControl s t ∧ SameOutside s t ∧ SameBytes s t ∧ t.priv = s.priv ∧
      t.wfiWait = s.wfiWait ∧ t.staleFetch = s.staleFetch

/-- A store of `n` bytes into a `main` region: the bytes at the effective address are those of `x[rs2]`, every other
byte is as before, and the bytes become stale if the region is executable. -/
def StoreMain (i : Instr) (s : State) (rs1 rs2 : RegNum) (imm : BitVec 12) (n : Nat) : Prop :=
  ∀ r, addr s rs1 imm % n = 0 → s.platform.regionAt (addr s rs1 imm) n = some r → r.w = true → r.kind = .main →
    ∃ t, exec i s = .next t ∧
      (∀ k, k < n → (memByte t.mem (addr s rs1 imm + k)).toNat = (s.x rs2).toNat / 256 ^ k % 256) ∧
      (∀ b, ¬(addr s rs1 imm ≤ b ∧ b < addr s rs1 imm + n) → memByte t.mem b = memByte s.mem b) ∧
      (∀ b, b ∈ t.staleFetch ↔
        b ∈ s.staleFetch ∨ r.x = true ∧ addr s rs1 imm ≤ b ∧ b < addr s rs1 imm + n) ∧
      SameRegs s t ∧ GoesOn s t ∧ SameControl s t ∧ SameOutside s t ∧ t.priv = s.priv ∧ t.wfiWait = s.wfiWait ∧
      t.ioHistory = s.ioHistory

/-- A store of `n` bytes to an `io` region: recorded last, and no byte of memory changes. -/
def StoreIo (i : Instr) (s : State) (rs1 rs2 : RegNum) (imm : BitVec 12) (n : Nat) : Prop :=
  addr s rs1 imm % n = 0 → Writable s (addr s rs1 imm) n .io →
    ∃ t v, exec i s = .next t ∧ v.toNat = (s.x rs2).toNat % 2 ^ (8 * n) ∧
      t.ioHistory = s.ioHistory ++ [.write (effectiveAddress s rs1 imm) n v] ∧
      SameRegs s t ∧ GoesOn s t ∧ SameControl s t ∧ SameOutside s t ∧ SameBytes s t ∧ t.priv = s.priv ∧
      t.wfiWait = s.wfiWait ∧ t.staleFetch = s.staleFetch

/-- A load of `n` bytes: from memory, from a device, and its exceptions (46_loads_stores.md, section Loads). -/
def LoadLaw (i : Instr) (s : State) (rd rs1 : RegNum) (imm : BitVec 12) (n : Nat) (signed : Bool) : Prop :=
  LoadMain i s rd rs1 imm n signed ∧ LoadIo i s rd rs1 imm n signed ∧ LoadTraps i s (addr s rs1 imm) n

/-- A store of `n` bytes: to memory, to a device, and its exceptions (46_loads_stores.md, section Stores). -/
def StoreLaw (i : Instr) (s : State) (rs1 rs2 : RegNum) (imm : BitVec 12) (n : Nat) : Prop :=
  StoreMain i s rs1 rs2 imm n ∧ StoreIo i s rs1 rs2 imm n ∧ StoreTraps i s (addr s rs1 imm) n

/-- The four bytes at `pc` are inside one executable `main` region (20_memory.md R92). -/
def Executable (s : State) : Prop :=
  ∃ r, s.platform.regionAt s.pc.toNat 4 = some r ∧ r.x = true ∧ r.kind = .main

/-- None of the four bytes at `pc` was stored to since the last FENCE.I (20_memory.md R101). -/
def Fresh (s : State) : Prop := ∀ a ∈ s.staleFetch, a < s.pc.toNat ∨ s.pc.toNat + 4 ≤ a

/-- The four bytes at `pc`, in memory order. -/
def codeBytes (s : State) : List Byte :=
  [memByte s.mem s.pc.toNat, memByte s.mem (s.pc.toNat + 1), memByte s.mem (s.pc.toNat + 2),
    memByte s.mem (s.pc.toNat + 3)]

/-- The bytes at `pc` can be fetched and stand for the instruction `i`. -/
def Fetches (s : State) (i : Instr) : Prop :=
  s.pc.toNat % 4 = 0 ∧ Executable s ∧ Fresh s ∧ decodeBytes s.xlen (codeBytes s) = .ok (i, [])

/-- The state in which this step looks for an interrupt: sampled, and not waiting any more. -/
def awake (s : State) : State := { s.sample with wfiWait := false }

/-- The step does not stop at a WFI that goes on waiting. -/
def Runs (s : State) : Prop := s.wfiWait = true → wakes s.sample = true

/-! ## Control and status registers -/

/-- The conditions of `CsrCheck` (45_csr.md R200) for an address that is implemented. -/
def CsrPasses (s : State) (a : BitVec 12) (w : Bool) : Prop :=
  (csrAt s.xlen a).isSome = true ∧
    a.toNat / 256 % 4 ≤ s.priv.level ∧
    ¬(w = true ∧ a.toNat / 1024 = 3) ∧
    ¬(a.toNat = 0x180 ∧ s.priv = .s ∧ s.mstatus.getLsbD 20 = true) ∧
    ((0xC00 ≤ a.toNat ∧ a.toNat ≤ 0xC1F ∨ 0xC80 ≤ a.toNat ∧ a.toNat ≤ 0xC9F) →
      (s.priv = .s → s.mcounteren.getLsbD (a.toNat % 32) = true) ∧
        (s.priv = .u →
          s.mcounteren.getLsbD (a.toNat % 32) = true ∧ s.scounteren.getLsbD (a.toNat % 32) = true))

/-- A CSR instruction `i` (45_csr.md R200). Where the check fails it raises IllegalInstruction. Where it passes for
register `c`: `x[rd]` reads the old value; if `w`, the value `new c` was written by the register's own rule (`u` is `s`
after that write), else nothing was; `pc` goes on; `minstret` counts the instruction unless it wrote that counter itself.
A non-zero write to `satp` is left to the statement about it. -/
def CsrLaw (i : Instr) (s : State) (rd : RegNum) (a : BitVec 12) (w : Bool) (new : Csr → Word) : Prop :=
  (¬CsrPasses s a w → TrapsIllegal i s) ∧
  ∀ c, CsrPasses s a w → csrAt s.xlen a = some c → (c = .satp → w = true → narrow s.xlen (new c) = 0) →
    ∃ u t, (w = false → u = s) ∧ (w = true → csrWrite c (new c) s = .ok u) ∧ exec i s = .next t ∧
      (rd ≠ 0#5 → t.x rd = csrRead c s) ∧ OtherRegs s t rd ∧ t.pc.toNat = pcPlus4 s ∧
      t.minstret = (if w = true ∧ (c = .minstret ∨ c = .minstreth) then u.minstret else u.minstret + 1) ∧
      SameControl u t ∧ SameOutside s t ∧ SameBytes s t ∧ t.priv = s.priv ∧ t.wfiWait = s.wfiWait ∧
      t.staleFetch = s.staleFetch ∧ t.ioHistory = s.ioHistory

/-- What the set and clear forms modify: the value the register reads, but for bit 9 of `mip`, which is `seip_sw` alone
(10_state.md R37, 45_csr.md R202, R203). -/
def modified (c : Csr) (s : State) : Word := if c = .mip then setBit (csrRead .mip s) 9 s.seipSw else csrRead c s

/-- The field of the state behind a register: the one that trap entry, the returns and the interrupt masks act on
(10_state.md R30, R34-R36, R39-R45). -/
def fieldOf (c : Csr) (s : State) : Option Word :=
  match c with
  | .mstatus => some (s.mstatus ||| (match s.xlen with | .rv32 => 0 | .rv64 => 0x0000000A00000000))
  | .medeleg => some s.medeleg
  | .mideleg => some s.mideleg
  | .mie => some s.mie
  | .mtvec => some s.mtvec
  | .stvec => some s.stvec
  | .mcounteren => some s.mcounteren
  | .scounteren => some s.scounteren
  | .mscratch => some s.mscratch
  | .sscratch => some s.sscratch
  | .mepc => some s.mepc
  | .sepc => some s.sepc
  | .mcause => some s.mcause
  | .scause => some s.scause
  | .mtval => some s.mtval
  | .stval => some s.stval
  | .mcycle => some s.mcycle
  | .minstret => some s.minstret
  | _ => none

/-- `i` completes as a CSR instruction on the register at `a`: it runs to a next state, `x[rd]` reads the old value, `pc`
goes on and the mode stays. -/
def CsrCompletes (i : Instr) (s : State) (rd : RegNum) (a : BitVec 12) : Prop :=
  ∃ c t, csrAt s.xlen a = some c ∧ exec i s = .next t ∧ (rd ≠ 0#5 → t.x rd = csrRead c s) ∧ t.pc.toNat = pcPlus4 s ∧
    t.priv = s.priv

/-- The address of a register (10_state.md R29). -/
def addressOf : Csr → Nat
  | .sstatus => 0x100
  | .sie => 0x104
  | .stvec => 0x105
  | .scounteren => 0x106
  | .sscratch => 0x140
  | .sepc => 0x141
  | .scause => 0x142
  | .stval => 0x143
  | .sip => 0x144
  | .satp => 0x180
  | .mstatus => 0x300
  | .misa => 0x301
  | .medeleg => 0x302
  | .mideleg => 0x303
  | .mie => 0x304
  | .mtvec => 0x305
  | .mcounteren => 0x306
  | .mhpmevent n => 0x320 + n
  | .mscratch => 0x340
  | .mepc => 0x341
  | .mcause => 0x342
  | .mtval => 0x343
  | .mip => 0x344
  | .mcycle => 0xB00
  | .minstret => 0xB02
  | .mhpmcounter n => 0xB00 + n
  | .mcycleh => 0xB80
  | .minstreth => 0xB82
  | .mhpmcounterh n => 0xB80 + n
  | .cycle => 0xC00
  | .time => 0xC01
  | .instret => 0xC02
  | .hpmcounter n => 0xC00 + n
  | .cycleh => 0xC80
  | .timeh => 0xC81
  | .instreth => 0xC82
  | .hpmcounterh n => 0xC80 + n
  | .mvendorid => 0xF11
  | .marchid => 0xF12
  | .mimpid => 0xF13
  | .mhartid => 0xF14

/-- The register exists on a machine of this XLEN: the high halves on RV32 only, the hpm families from 3 to 31
(10_state.md R29). -/
def existsOn (xl : Xlen) : Csr → Prop
  | .mcycleh | .minstreth | .cycleh | .timeh | .instreth => xl = .rv32
  | .mhpmcounterh n | .hpmcounterh n => xl = .rv32 ∧ 3 ≤ n ∧ n ≤ 31
  | .mhpmevent n | .mhpmcounter n | .hpmcounter n => 3 ≤ n ∧ n ≤ 31
  | _ => True

/-- Registers that share storage, so that writing one may change how the other reads. -/
def shares (c d : Csr) : Bool :=
  let group : Csr → List Nat := fun c =>
    match c with
    | .mstatus | .sstatus => [1]
    | .mie => [2]
    | .sie => [2, 3]
    | .mip => [4]
    | .sip => [3, 4]
    | .mideleg => [3]
    | .mcycle | .mcycleh | .cycle | .cycleh => [5]
    | .minstret | .minstreth | .instret | .instreth => [6]
    | .stvec => [7]
    | .scounteren => [8]
    | .sscratch => [9]
    | .sepc => [10]
    | .scause => [11]
    | .stval => [12]
    | .medeleg => [13]
    | .mtvec => [14]
    | .mcounteren => [15]
    | .mscratch => [16]
    | .mepc => [17]
    | .mcause => [18]
    | .mtval => [19]
    | _ => []
  (group c).any fun k => (group d).contains k

/-- What a read/write register reads right after `v` was written to it in state `s` (10_state.md R30, R34-R36, R39-R45,
R47); `none` for the views, the read-only and the hardwired registers. -/
def readsBack (c : Csr) (s : State) (v : Word) : Option Word :=
  match c with
  | .mstatus =>
    some (narrow s.xlen (((s.mstatus &&& ~~~0x007E19AA) ||| (v &&& 0x007E19AA)) |||
      (match s.xlen with | .rv32 => 0 | .rv64 => 0x0000000A00000000)))
  | .medeleg => some (v &&& 0xB3FF)
  | .mideleg => some (v &&& 0x222)
  | .mie => some (v &&& 0xAAA)
  | .mtvec => some (narrow s.xlen v &&& ~~~2)
  | .stvec => some (narrow s.xlen v &&& ~~~2)
  | .mcounteren => some (v &&& 7)
  | .scounteren => some (v &&& 7)
  | .mscratch => some (narrow s.xlen v)
  | .sscratch => some (narrow s.xlen v)
  | .mepc => some (narrow s.xlen v &&& ~~~3)
  | .sepc => some (narrow s.xlen v &&& ~~~3)
  | .mcause => some (narrow s.xlen v)
  | .scause => some (narrow s.xlen v)
  | .mtval => some (narrow s.xlen v)
  | .stval => some (narrow s.xlen v)
  | .mcycle => some (narrow s.xlen v)
  | .minstret => some (narrow s.xlen v)
  | _ => none

/-- Interrupts in falling priority among those for one mode (60_exceptions.md R333): a smaller number comes first. -/
def rank : Interrupt → Nat
  | .mei => 0
  | .msi => 1
  | .mti => 2
  | .sei => 3
  | .ssi => 4
  | .sti => 5

/-- The condition of 60_exceptions.md R332. -/
def Takeable (s : State) (i : Interrupt) : Prop :=
  s.mip.getLsbD i.code = true ∧ s.mie.getLsbD i.code = true ∧
    (s.mideleg.getLsbD i.code = false → s.priv.level < 3 ∨ s.priv = .m ∧ s.mstatus.getLsbD 3 = true) ∧
    (s.mideleg.getLsbD i.code = true → s.priv = .u ∨ s.priv = .s ∧ s.mstatus.getLsbD 1 = true)

/-- `i` is a store of `n` bytes whose effective address in `s` is `a`. -/
def IsStore (i : Instr) (s : State) (a n : Nat) : Prop :=
  ∃ rs1 rs2 imm, a = addr s rs1 imm ∧
    (i = .sb rs1 rs2 imm ∧ n = 1 ∨ i = .sh rs1 rs2 imm ∧ n = 2 ∨ i = .sw rs1 rs2 imm ∧ n = 4 ∨
      i = .sd rs1 rs2 imm ∧ n = 8)

end Sys2Proof.Claims

open Sys2Proof Sys2Proof.Machine Sys2Proof.Claims

/-! ## Encoding -/

/-- Decoding the word of a well-formed instruction gives the instruction back, with every operand (30_encoding.md R111,
R113, R114, R120). -/
def Obligations.DecodeGivesBackEncoded : Prop :=
  ∀ (xl : Xlen) (i : Instr), i.wellFormed xl = true → decode xl (encode i) = .ok i

/-- A word that decodes is the word of the instruction it decodes to: the decoder drops no bit of it. For FENCE and FENCE.I
words with non-zero ignored fields (30_encoding.md R126) that is the model's choice, assumption log 21: their terms keep
those fields. -/
def Obligations.EncodeGivesBackDecoded : Prop :=
  ∀ (xl : Xlen) (w : InstrWord) (i : Instr), decode xl w = .ok i → encode i = w ∧ i.wellFormed xl = true

/-- No two rows of the opcode table match one word on one machine (R120). -/
def Obligations.OpcodeRowsNeverOverlap : Prop :=
  opcodeTable.Pairwise fun r q => ∀ (xl : Xlen) (w : InstrWord), ¬(r.hits xl w = true ∧ q.hits xl w = true)

/-- Words written out in the rules' examples decode to the instructions the rules give. -/
def Obligations.SpecWordsDecode : Prop :=
  decode .rv32 0x002081B3 = .ok (.add 3 1 2) ∧ decode .rv32 0xFFF08113 = .ok (.addi 2 1 0xFFF) ∧
    decode .rv32 0x123452B7 = .ok (.lui 5 0x12345) ∧ decode .rv32 0xFE209CE3 = .ok (.bne 1 2 0x1FF8) ∧
    decode .rv32 0x001000EF = .ok (.jal 1 2048) ∧ decode .rv32 0xFE732E23 = .ok (.sw 6 7 0xFFC) ∧
    decode .rv64 0x41C0D11B = .ok (.sraiw 2 1 28) ∧ decode .rv32 0x340312F3 = .ok (.csrrw 5 0x340 6) ∧
    decode .rv32 0x12628073 = .ok (.sfenceVma 5 6) ∧ decode .rv32 0x00208863 = .ok (.beq 1 2 16)

/-- A word whose bits [1:0] are not 11, or whose bits [4:2] are 111, is no instruction (R110). -/
def Obligations.OtherLengthsRejected : Prop :=
  ∀ (xl : Xlen) (w : InstrWord), (w.toNat % 4 ≠ 3 ∨ w.toNat / 4 % 8 = 7) → ∃ e, decode xl w = .error e

/-- An instruction that RV64I adds, or a shift amount of 32 and more, is illegal on RV32: its own word is rejected, no
word of RV32 decodes to it, and its term traps (R125; that a term traps is the model's, assumption log 20). An exception
is refused while the vector it would go through is unwritten (70_reset_and_hazards.md R362, U23 of
93_implementation_defined.md; the record of the write is the model's, assumption log 5). -/
def Obligations.Rv64FormsIllegalOnRv32 : Prop :=
  ∀ (s : State) (i : Instr), s.xlen = .rv32 →
    (i.rv64Only = true ∨
      ∃ rd rs1 shamt, 32 ≤ shamt.toNat ∧ (i = .slli rd rs1 shamt ∨ i = .srli rd rs1 shamt ∨ i = .srai rd rs1 shamt)) →
    (∃ e, decode .rv32 (encode i) = .error e) ∧ (∀ w, decode .rv32 w ≠ .ok i) ∧ TrapsIllegal i s

/-! ## One step -/

/-- When no interrupt is taken and the bytes at `pc` decode to `i`, the step is `exec i` in the state it has sampled; up to
then only the sampled inputs, `mcycle`, the wait and the model's own fields have changed (00_scope.md R15; the fields are
those of assumption logs 7 and 9). -/
def Obligations.StepRunsDecodedInstruction : Prop :=
  ∀ (s : State) (i : Instr), Runs s → interruptNow (awake s) = none → Fetches (awake s) i →
    step s = exec i (awake s).holdOff ∧ SameRegs s (awake s).holdOff ∧ SameBytes s (awake s).holdOff ∧
      SameControl { s with mcycle := (awake s).mcycle } (awake s).holdOff ∧
      (awake s).holdOff.pc = s.pc ∧ (awake s).holdOff.priv = s.priv ∧ (awake s).holdOff.platform = s.platform ∧
      (awake s).holdOff.mstatus = s.mstatus ∧ (awake s).holdOff.minstret = s.minstret ∧
      (awake s).holdOff.staleFetch = s.staleFetch ∧ (awake s).holdOff.ioHistory = s.ioHistory

/-- Bytes that stand for no instruction raise IllegalInstruction with the word as trap value (30_encoding.md R125);
through an unwritten vector that is refused (70_reset_and_hazards.md R362; the record of the write is the model's,
assumption log 5). -/
def Obligations.StepTrapsOnIllegalWord : Prop :=
  ∀ (s : State) (e : Reject), Runs s → interruptNow (awake s) = none → s.pc.toNat % 4 = 0 → Executable s → Fresh s →
    decodeBytes s.xlen (codeBytes s) = .error e →
    TakesException (step s) (awake s) .illegalInstr (bytesAt s.mem s.pc.toNat 4)

/-- A fetch outside every executable region raises InstructionAccessFault; trap value and epc are the address
(20_memory.md R92); through an unwritten vector that is refused (70_reset_and_hazards.md R362; the record of the write
is the model's, assumption log 5). -/
def Obligations.StepTrapsOnFetchFault : Prop :=
  ∀ s : State, Runs s → interruptNow (awake s) = none → s.pc.toNat % 4 = 0 →
    (∀ r, s.platform.regionAt s.pc.toNat 4 = some r → r.x = false ∨ r.kind = .io) →
    TakesException (step s) (awake s) .instrAccessFault s.pc.toNat

/-- A fetch of a byte stored to since the last FENCE.I is refused (20_memory.md R101 and
70_reset_and_hazards.md R371 give it no result; of the two ways they allow the model takes the refusal, assumption
log 14). -/
def Obligations.StepRefusesStaleFetch : Prop :=
  ∀ s : State, Runs s → interruptNow (awake s) = none → s.pc.toNat % 4 = 0 → Executable s →
    (∃ a ∈ s.staleFetch, s.pc.toNat ≤ a ∧ a < s.pc.toNat + 4) → step s = .refused .staleFetch

/-- An interrupt that is taken is a trap entry before the fetch, with trap value 0 and epc = `pc` (60_exceptions.md R320,
R333); it goes through the vector register whatever wrote it last, reset included (assumption log 5). -/
def Obligations.StepTakesInterrupt : Prop :=
  ∀ (s : State) (i : Interrupt), Runs s → interruptNow (awake s) = some i →
    ∃ t, step s = .next t ∧ Interrupted (awake s) t i

/-- A hart in WFI that does not wake executes nothing: only the inputs and `mcycle` change; and it must wake when an
interrupt is both pending and enabled in `mie` (47_privileged.md R232; when else it wakes is free, assumption log 10). -/
def Obligations.WaitingHartIdlesOrWakes : Prop :=
  ∀ s : State, s.wfiWait = true →
    (wakes s.sample = false →
      ∃ t, step s = .next t ∧ t.wfiWait = true ∧ t.pc = s.pc ∧ t.priv = s.priv ∧ t.minstret = s.minstret ∧
        SameRegs s t ∧ SameBytes s t ∧ SameControl s.sample t ∧ t.ext = s.sample.ext ∧ t.staleFetch = s.staleFetch ∧
        t.ioHistory = s.ioHistory) ∧
    (s.sample.mip &&& s.mie ≠ 0 → step s = runActive (awake s))

/-- Sampling replaces the four lines by the platform's, advances `mtime` and advances `mcycle` by what the platform draws, 1
to 2^64 - 1, so that `mcycle` never stands still; it changes nothing else the hart can see (60_exceptions.md R331, R345,
R346; the form of the draw is the model's, assumption logs 7 and 8). -/
def Obligations.SamplingAdvancesCounters : Prop :=
  ∀ s : State,
    s.sample.mcycle.toNat = (s.mcycle.toNat + (s.nextDraw.extraCycles.val + 1)) % 2 ^ 64 ∧
    s.sample.mcycle ≠ s.mcycle ∧
    s.sample.ext.mtime.toNat = (s.ext.mtime.toNat + s.nextDraw.mtimeAdvance.toNat) % 2 ^ 64 ∧
    s.sample.ext.meip = s.nextDraw.meip ∧ s.sample.ext.seipExt = s.nextDraw.seipExt ∧
    s.sample.ext.mtip = s.nextDraw.mtip ∧ s.sample.ext.msip = s.nextDraw.msip ∧
    SameControl { s with mcycle := s.sample.mcycle } s.sample ∧ s.sample.minstret = s.minstret ∧
    SameRegs s s.sample ∧ SameBytes s s.sample ∧ s.sample.pc = s.pc ∧ s.sample.priv = s.priv ∧
    s.sample.platform = s.platform ∧ s.sample.staleFetch = s.staleFetch ∧ s.sample.wfiWait = s.wfiWait ∧
    s.sample.ioHistory = s.ioHistory

/-! ## Headline results -/

/-- Every step keeps the invariant of the state, and the parameters of the machine. -/
def Obligations.StepKeepsStateInvariant : Prop :=
  ∀ s t : State, s.Inv → step s = .next t → t.Inv ∧ t.platform = s.platform

/-- The state after reset meets the invariant, and its parameters are legal (the parameters are the model's choice,
assumption logs 2 and 3). -/
def Obligations.ResetMeetsStateInvariant : Prop :=
  State.reset.Inv ∧ State.reset.platform.wf = true

/-- No step from a state that meets the invariant ends in a fault: there is no lockup (60_exceptions.md R327; the one
fault is the model's own, assumption log 16). -/
def Obligations.NoStepFaults : Prop :=
  ∀ (s : State) (f : Fault), s.Inv → step s ≠ .fault f

/-- A byte of memory changes only when the step runs a store that covers it, in a writable `main` region. -/
def Obligations.OnlyStoresChangeMemory : Prop :=
  ∀ (s t : State) (a : Nat), step s = .next t → memByte t.mem a ≠ memByte s.mem a →
    ∃ i b n, Fetches (awake s) i ∧ IsStore i (awake s) b n ∧ b ≤ a ∧ a < b + n ∧ Writable (awake s) b n .main

/-- The privilege mode falls only when the step runs MRET or SRET (10_state.md R24, 60_exceptions.md R340). -/
def Obligations.OnlyReturnsLowerPrivilege : Prop :=
  ∀ s t : State, step s = .next t → t.priv.level < s.priv.level →
    Fetches (awake s) .mret ∧ s.priv = .m ∨ Fetches (awake s) .sret

/-- The privilege mode rises only in a trap: the exception program counter of the new mode holds the old `pc`, no general
register and no byte changes, and no instruction retires (60_exceptions.md R340). -/
def Obligations.OnlyTrapsRaisePrivilege : Prop :=
  ∀ s t : State, step s = .next t → s.priv.level < t.priv.level →
    (t.priv = .m ∧ t.mepc = s.pc ∨ t.priv = .s ∧ t.sepc = s.pc) ∧ SameRegs s t ∧ SameBytes s t ∧
      t.minstret = s.minstret ∧ t.wfiWait = false

/-- A step that starts and ends in U-mode writes no control register: of the counters only `mcycle` moves, by sampling,
and `minstret` by at most one (60_exceptions.md R340). -/
def Obligations.UserModeKeepsControlRegisters : Prop :=
  ∀ s t : State, s.priv = .u → step s = .next t → t.priv = .u →
    SameControl (awake s) t ∧ (t.minstret = s.minstret ∨ t.minstret = s.minstret + 1)

/-- An interrupt that stays takeable is not put off for ever: within the number of steps the platform drew for it, some
interrupt is taken (60_exceptions.md R333; the number is the model's, assumption log 9). -/
def Obligations.TakeableInterruptIsBounded : Prop :=
  ∀ (st : Nat → State) (i : Interrupt) (k : Nat),
    delayLeft (st 0).postponed (st 0).nextDraw.interruptDelay i = k →
    (∀ n, n < k → step (st n) = .next (st (n + 1))) → (∀ n, n ≤ k → takeable (awake (st n)) i = true) →
    ∃ n, n ≤ k ∧ ∃ j, interruptNow (awake (st n)) = some j

/-! ## Registers and arithmetic -/

/-- x0 reads 0 and a write to it is discarded; a write to another register is read back and leaves the rest (10_state.md
R20). -/
def Obligations.RegisterZeroIsHardwired : Prop :=
  ∀ (s : State) (r : RegNum) (v : Word), s.x 0#5 = 0 ∧ s.setX 0#5 v = s ∧
    (r ≠ 0#5 → ((s.setX r v).x r).toNat = v.toNat % modulus s) ∧ OtherRegs s (s.setX r v) r

/-- ADD, SUB and ADDI, modulo 2^XLEN (41_arithmetic.md R160-R162). -/
def Obligations.AddAndSubWrap : Prop :=
  ∀ (s : State) (rd rs1 rs2 : RegNum) (imm : BitVec 12),
    Coded (.add rd rs1 rs2) 0x00000033 0xFE00707F ∧ Coded (.sub rd rs1 rs2) 0x40000033 0xFE00707F ∧
    Coded (.addi rd rs1 imm) 0x00000013 0x0000707F ∧
    WritesRd (.add rd rs1 rs2) s rd (fun v => v.toNat = wrap s ((s.x rs1).toNat + (s.x rs2).toNat)) ∧
    WritesRd (.sub rd rs1 rs2) s rd (fun v => v.toNat = wrap s ((s.x rs1).toNat - (s.x rs2).toNat)) ∧
    WritesRd (.addi rd rs1 imm) s rd (fun v => v.toNat = wrap s ((s.x rs1).toNat + imm.toInt))

/-- LUI and AUIPC (R163, R164). -/
def Obligations.UpperImmediates : Prop :=
  ∀ (s : State) (rd : RegNum) (imm : BitVec 20),
    Coded (.lui rd imm) 0x00000037 0x0000007F ∧ Coded (.auipc rd imm) 0x00000017 0x0000007F ∧
    WritesRd (.lui rd imm) s rd (fun v => v.toNat = wrap s (upper imm)) ∧
    WritesRd (.auipc rd imm) s rd (fun v => v.toNat = wrap s (s.pc.toNat + upper imm))

/-- ADDW, ADDIW and SUBW on RV64: modulo 2^32, sign-extended; illegal on RV32 (R165-R167; that the term traps there with
its own word is the model's, assumption log 20). An exception is refused while the vector it would go through is
unwritten (70_reset_and_hazards.md R362, U23 of 93_implementation_defined.md; the record of the write is the model's,
assumption log 5). -/
def Obligations.WordArithmetic : Prop :=
  ∀ (s : State) (rd rs1 rs2 : RegNum) (imm : BitVec 12),
    (Coded (.addw rd rs1 rs2) 0x0000003B 0xFE00707F ∧ Coded (.addiw rd rs1 imm) 0x0000001B 0x0000707F ∧
      Coded (.subw rd rs1 rs2) 0x4000003B 0xFE00707F) ∧
    (s.xlen = .rv64 →
      WritesRd (.addw rd rs1 rs2) s rd (fun v => asSigned s v = Int.bmod (low s rs1 + low s rs2) (2 ^ 32)) ∧
      WritesRd (.addiw rd rs1 imm) s rd
        (fun v => asSigned s v = Int.bmod ((s.x rs1).toNat + imm.toInt) (2 ^ 32)) ∧
      WritesRd (.subw rd rs1 rs2) s rd (fun v => asSigned s v = Int.bmod (low s rs1 - low s rs2) (2 ^ 32))) ∧
    (s.xlen = .rv32 →
      TrapsIllegal (.addw rd rs1 rs2) s ∧ TrapsIllegal (.addiw rd rs1 imm) s ∧ TrapsIllegal (.subw rd rs1 rs2) s)

/-- XOR, OR and AND, and their forms with the sign-extended immediate, bit by bit (42_logical_compare.md R170-R175). -/
def Obligations.BitwiseLogic : Prop :=
  ∀ (s : State) (rd rs1 rs2 : RegNum) (imm : BitVec 12),
    (Coded (.xor rd rs1 rs2) 0x00004033 0xFE00707F ∧ Coded (.xori rd rs1 imm) 0x00004013 0x0000707F ∧
      Coded (.or rd rs1 rs2) 0x00006033 0xFE00707F ∧ Coded (.ori rd rs1 imm) 0x00006013 0x0000707F ∧
      Coded (.and rd rs1 rs2) 0x00007033 0xFE00707F ∧ Coded (.andi rd rs1 imm) 0x00007013 0x0000707F) ∧
    WritesRd (.xor rd rs1 rs2) s rd
      (fun v => ∀ k, v.getLsbD k = ((s.x rs1).getLsbD k != (s.x rs2).getLsbD k)) ∧
    WritesRd (.xori rd rs1 imm) s rd
      (fun v => ∀ k, k < s.xlen.bits → v.getLsbD k = ((s.x rs1).getLsbD k != immBit imm k)) ∧
    WritesRd (.or rd rs1 rs2) s rd
      (fun v => ∀ k, v.getLsbD k = ((s.x rs1).getLsbD k || (s.x rs2).getLsbD k)) ∧
    WritesRd (.ori rd rs1 imm) s rd
      (fun v => ∀ k, k < s.xlen.bits → v.getLsbD k = ((s.x rs1).getLsbD k || immBit imm k)) ∧
    WritesRd (.and rd rs1 rs2) s rd
      (fun v => ∀ k, v.getLsbD k = ((s.x rs1).getLsbD k && (s.x rs2).getLsbD k)) ∧
    WritesRd (.andi rd rs1 imm) s rd
      (fun v => ∀ k, k < s.xlen.bits → v.getLsbD k = ((s.x rs1).getLsbD k && immBit imm k))

/-- SLT, SLTI, SLTU and SLTIU: 1 or 0 (R176-R179). -/
def Obligations.CompareWritesOneOrZero : Prop :=
  ∀ (s : State) (rd rs1 rs2 : RegNum) (imm : BitVec 12),
    Coded (.slt rd rs1 rs2) 0x00002033 0xFE00707F ∧ Coded (.slti rd rs1 imm) 0x00002013 0x0000707F ∧
    Coded (.sltu rd rs1 rs2) 0x00003033 0xFE00707F ∧ Coded (.sltiu rd rs1 imm) 0x00003013 0x0000707F ∧
    WritesRd (.slt rd rs1 rs2) s rd
      (fun v => v.toNat = if asSigned s (s.x rs1) < asSigned s (s.x rs2) then 1 else 0) ∧
    WritesRd (.slti rd rs1 imm) s rd (fun v => v.toNat = if asSigned s (s.x rs1) < imm.toInt then 1 else 0) ∧
    WritesRd (.sltu rd rs1 rs2) s rd (fun v => v.toNat = if (s.x rs1).toNat < (s.x rs2).toNat then 1 else 0) ∧
    WritesRd (.sltiu rd rs1 imm) s rd (fun v => v.toNat = if (s.x rs1).toNat < wrap s imm.toInt then 1 else 0)

/-- SLL, SRL and SRA by the low bits of `x[rs2]` (40_shifts.md R140, R142, R144). -/
def Obligations.RegisterShifts : Prop :=
  ∀ (s : State) (rd rs1 rs2 : RegNum),
    Coded (.sll rd rs1 rs2) 0x00001033 0xFE00707F ∧ Coded (.srl rd rs1 rs2) 0x00005033 0xFE00707F ∧
    Coded (.sra rd rs1 rs2) 0x40005033 0xFE00707F ∧
    WritesRd (.sll rd rs1 rs2) s rd (fun v => v.toNat = (s.x rs1).toNat * 2 ^ amount s rs2 % modulus s) ∧
    WritesRd (.srl rd rs1 rs2) s rd (fun v => v.toNat = (s.x rs1).toNat / 2 ^ amount s rs2) ∧
    WritesRd (.sra rd rs1 rs2) s rd (fun v => asSigned s v = asSigned s (s.x rs1) / 2 ^ amount s rs2)

/-- SLLI, SRLI and SRAI by an amount below XLEN; a larger amount is an illegal word of RV32 (R141, R143, R145; that the
term traps there with its own word is the model's, assumption log 20). An exception is refused while the vector it would
go through is unwritten (70_reset_and_hazards.md R362, U23 of 93_implementation_defined.md; the record of the write is
the model's, assumption log 5). -/
def Obligations.ImmediateShifts : Prop :=
  ∀ (s : State) (rd rs1 : RegNum) (shamt : BitVec 6),
    (shamt.toNat < s.xlen.bits →
      Coded (.slli rd rs1 shamt) 0x00001013 (if s.xlen = .rv32 then 0xFE00707F else 0xFC00707F) ∧
      Coded (.srli rd rs1 shamt) 0x00005013 (if s.xlen = .rv32 then 0xFE00707F else 0xFC00707F) ∧
      Coded (.srai rd rs1 shamt) 0x40005013 (if s.xlen = .rv32 then 0xFE00707F else 0xFC00707F) ∧
      WritesRd (.slli rd rs1 shamt) s rd (fun v => v.toNat = (s.x rs1).toNat * 2 ^ shamt.toNat % modulus s) ∧
      WritesRd (.srli rd rs1 shamt) s rd (fun v => v.toNat = (s.x rs1).toNat / 2 ^ shamt.toNat) ∧
      WritesRd (.srai rd rs1 shamt) s rd (fun v => asSigned s v = asSigned s (s.x rs1) / 2 ^ shamt.toNat)) ∧
    (s.xlen.bits ≤ shamt.toNat →
      TrapsIllegal (.slli rd rs1 shamt) s ∧ TrapsIllegal (.srli rd rs1 shamt) s ∧ TrapsIllegal (.srai rd rs1 shamt) s)

/-- The `W` shifts on RV64: on the low 32 bits, the result sign-extended; illegal on RV32 (R146-R151; that the term
traps there with its own word is the model's, assumption log 20). An exception is refused while the vector it would go
through is unwritten (70_reset_and_hazards.md R362, U23 of 93_implementation_defined.md; the record of the write is the
model's, assumption log 5). -/
def Obligations.WordShifts : Prop :=
  ∀ (s : State) (rd rs1 rs2 : RegNum) (shamt : BitVec 5),
    (Coded (.sllw rd rs1 rs2) 0x0000103B 0xFE00707F ∧ Coded (.slliw rd rs1 shamt) 0x0000101B 0xFE00707F ∧
      Coded (.srlw rd rs1 rs2) 0x0000503B 0xFE00707F ∧ Coded (.srliw rd rs1 shamt) 0x0000501B 0xFE00707F ∧
      Coded (.sraw rd rs1 rs2) 0x4000503B 0xFE00707F ∧ Coded (.sraiw rd rs1 shamt) 0x4000501B 0xFE00707F) ∧
    (s.xlen = .rv64 →
      WritesRd (.sllw rd rs1 rs2) s rd
        (fun v => asSigned s v = Int.bmod (low s rs1 * 2 ^ ((s.x rs2).toNat % 32)) (2 ^ 32)) ∧
      WritesRd (.slliw rd rs1 shamt) s rd
        (fun v => asSigned s v = Int.bmod (low s rs1 * 2 ^ shamt.toNat) (2 ^ 32)) ∧
      WritesRd (.srlw rd rs1 rs2) s rd
        (fun v => asSigned s v = Int.bmod (low s rs1 / 2 ^ ((s.x rs2).toNat % 32)) (2 ^ 32)) ∧
      WritesRd (.srliw rd rs1 shamt) s rd
        (fun v => asSigned s v = Int.bmod (low s rs1 / 2 ^ shamt.toNat) (2 ^ 32)) ∧
      WritesRd (.sraw rd rs1 rs2) s rd
        (fun v => asSigned s v = Int.bmod (low s rs1) (2 ^ 32) / 2 ^ ((s.x rs2).toNat % 32)) ∧
      WritesRd (.sraiw rd rs1 shamt) s rd
        (fun v => asSigned s v = Int.bmod (low s rs1) (2 ^ 32) / 2 ^ shamt.toNat)) ∧
    (s.xlen = .rv32 →
      TrapsIllegal (.sllw rd rs1 rs2) s ∧ TrapsIllegal (.slliw rd rs1 shamt) s ∧ TrapsIllegal (.srlw rd rs1 rs2) s ∧
        TrapsIllegal (.srliw rd rs1 shamt) s ∧ TrapsIllegal (.sraw rd rs1 rs2) s ∧
        TrapsIllegal (.sraiw rd rs1 shamt) s)

/-- What the assembler's pseudo-instructions do: MV copies, NOP does nothing, LI of 32 bits leaves the constant in the low
32 bits (48_pseudo_and_calling_convention.md R242, R245). -/
def Obligations.PseudoInstructions : Prop :=
  ∀ (s : State) (rd rs : RegNum) (imm : BitVec 32),
    WritesRd (Pseudo.mv rd rs) s rd (fun v => v = s.x rs) ∧ WritesRd Pseudo.nop s 0#5 (fun _ => True) ∧
    (rd ≠ 0#5 → ∃ t u, Pseudo.li rd imm = [.lui rd ((imm + 0x800).extractLsb' 12 20), .addi rd rd (imm.extractLsb' 0 12)] ∧
      exec (.lui rd ((imm + 0x800).extractLsb' 12 20)) s = .next t ∧
      exec (.addi rd rd (imm.extractLsb' 0 12)) t = .next u ∧ (u.x rd).toNat % 2 ^ 32 = imm.toNat)

/-! ## Control transfer -/

/-- The six branches: taken, not taken, and taken to a misaligned target, which raises (43_branches_jumps.md R180-R186).
An exception is refused while the vector it would go through is unwritten (70_reset_and_hazards.md R362, U23 of
93_implementation_defined.md; the record of the write is the model's, assumption log 5). -/
def Obligations.BranchesCompareAndGo : Prop :=
  ∀ (s : State) (rs1 rs2 : RegNum) (off : BitVec 13),
    (Coded (.beq rs1 rs2 off) 0x00000063 0x0000707F ∧ Coded (.bne rs1 rs2 off) 0x00001063 0x0000707F ∧
      Coded (.blt rs1 rs2 off) 0x00004063 0x0000707F ∧ Coded (.bge rs1 rs2 off) 0x00005063 0x0000707F ∧
      Coded (.bltu rs1 rs2 off) 0x00006063 0x0000707F ∧ Coded (.bgeu rs1 rs2 off) 0x00007063 0x0000707F) ∧
    BranchLaw (.beq rs1 rs2 off) s off (s.x rs1 = s.x rs2) ∧
    BranchLaw (.bne rs1 rs2 off) s off (s.x rs1 ≠ s.x rs2) ∧
    BranchLaw (.blt rs1 rs2 off) s off (asSigned s (s.x rs1) < asSigned s (s.x rs2)) ∧
    BranchLaw (.bge rs1 rs2 off) s off (asSigned s (s.x rs2) ≤ asSigned s (s.x rs1)) ∧
    BranchLaw (.bltu rs1 rs2 off) s off ((s.x rs1).toNat < (s.x rs2).toNat) ∧
    BranchLaw (.bgeu rs1 rs2 off) s off ((s.x rs2).toNat ≤ (s.x rs1).toNat)

/-- JAL and JALR; a misaligned target raises; `x[rs1]` is read before the link is written (R180, R187, R188). An
exception is refused while the vector it would go through is unwritten (70_reset_and_hazards.md R362, U23 of
93_implementation_defined.md; the record of the write is the model's, assumption log 5). -/
def Obligations.JumpsLinkAndGo : Prop :=
  ∀ (s : State) (rd rs1 : RegNum) (off : BitVec 21) (imm : BitVec 12),
    Coded (.jal rd off) 0x0000006F 0x0000007F ∧ Coded (.jalr rd rs1 imm) 0x00000067 0x0000707F ∧
    JumpLaw (.jal rd off) s rd (relative s off) ∧ JumpLaw (.jalr rd rs1 imm) s rd (viaRegister s rs1 imm)

/-! ## Synchronisation and environment -/

/-- FENCE records its two sets and FENCE.I empties the stale bytes; nothing else changes but `pc` and `minstret`
(44_synch_environment.md R190, R191). -/
def Obligations.FencesGoOn : Prop :=
  ∀ (s : State) (fm pred succ : BitVec 4) (imm : BitVec 12) (rs1 rd : RegNum),
    Coded (.fence fm pred succ rs1 rd) 0x0000000F 0x0000707F ∧ Coded (.fenceI imm rs1 rd) 0x0000100F 0x0000707F ∧
    (∃ t, exec (.fence fm pred succ rs1 rd) s = .next t ∧ t.ioHistory = s.ioHistory ++ [.fence pred succ] ∧
      t.staleFetch = s.staleFetch ∧ SameRegs s t ∧ GoesOn s t ∧ SameControl s t ∧ SameOutside s t ∧ SameBytes s t ∧
      t.priv = s.priv ∧ t.wfiWait = s.wfiWait) ∧
    (∃ t, exec (.fenceI imm rs1 rd) s = .next t ∧ t.staleFetch = [] ∧ t.ioHistory = s.ioHistory ∧
      SameRegs s t ∧ GoesOn s t ∧ SameControl s t ∧ SameOutside s t ∧ SameBytes s t ∧
      t.priv = s.priv ∧ t.wfiWait = s.wfiWait)

/-- ECALL raises the environment call of the mode with trap value 0; EBREAK raises Breakpoint, with trap value 0 or its
own address; neither retires (R192, R193). As every exception, each is refused while the vector it would go through is
unwritten (70_reset_and_hazards.md R362, U23 of 93_implementation_defined.md; the record of the write is the model's,
assumption log 5). -/
def Obligations.EcallAndEbreakTrap : Prop :=
  ∀ s : State, encode .ecall = 0x00000073 ∧ encode .ebreak = 0x00100073 ∧
    (s.priv = .u → Traps .ecall s .ecallU 0) ∧ (s.priv = .s → Traps .ecall s .ecallS 0) ∧
    (s.priv = .m → Traps .ecall s .ecallM 0) ∧
    (Traps .ebreak s .breakpoint 0 ∨ Traps .ebreak s .breakpoint s.pc.toNat)

/-! ## Loads and stores -/

/-- The effective address: base plus sign-extended offset, modulo 2^XLEN (46_loads_stores.md R210). -/
def Obligations.EffectiveAddressWraps : Prop :=
  ∀ (s : State) (rs1 : RegNum) (imm : BitVec 12), addr s rs1 imm = wrap s ((s.x rs1).toNat + imm.toInt)

/-- The loads that both XLENs have (R211-R215). An exception is refused while the vector it would go through is
unwritten (70_reset_and_hazards.md R362, U23 of 93_implementation_defined.md; the record of the write is the model's,
assumption log 5). What a device answers to a load is a free value and the form of the record of the access is the
model's (20_memory.md R87, assumption log 11). -/
def Obligations.LoadsByWidth : Prop :=
  ∀ (s : State) (rd rs1 : RegNum) (imm : BitVec 12),
    (Coded (.lb rd rs1 imm) 0x00000003 0x0000707F ∧ Coded (.lh rd rs1 imm) 0x00001003 0x0000707F ∧
      Coded (.lw rd rs1 imm) 0x00002003 0x0000707F ∧ Coded (.lbu rd rs1 imm) 0x00004003 0x0000707F ∧
      Coded (.lhu rd rs1 imm) 0x00005003 0x0000707F) ∧
    LoadLaw (.lb rd rs1 imm) s rd rs1 imm 1 true ∧ LoadLaw (.lh rd rs1 imm) s rd rs1 imm 2 true ∧
    LoadLaw (.lw rd rs1 imm) s rd rs1 imm 4 true ∧ LoadLaw (.lbu rd rs1 imm) s rd rs1 imm 1 false ∧
    LoadLaw (.lhu rd rs1 imm) s rd rs1 imm 2 false

/-- LWU and LD on RV64; illegal on RV32 (R216, R217; that the term traps there with its own word is the model's,
assumption log 20). An exception is refused while the vector it would go through is unwritten (70_reset_and_hazards.md
R362, U23 of 93_implementation_defined.md; the record of the write is the model's, assumption log 5). What a device
answers to a load is a free value and the form of the record of the access is the model's (20_memory.md R87, assumption
log 11). -/
def Obligations.WideLoads : Prop :=
  ∀ (s : State) (rd rs1 : RegNum) (imm : BitVec 12),
    (Coded (.lwu rd rs1 imm) 0x00006003 0x0000707F ∧ Coded (.ld rd rs1 imm) 0x00003003 0x0000707F) ∧
    (s.xlen = .rv64 → LoadLaw (.lwu rd rs1 imm) s rd rs1 imm 4 false ∧ LoadLaw (.ld rd rs1 imm) s rd rs1 imm 8 false) ∧
    (s.xlen = .rv32 → TrapsIllegal (.lwu rd rs1 imm) s ∧ TrapsIllegal (.ld rd rs1 imm) s)

/-- The stores, SD on RV64 and illegal on RV32: exactly the bytes of the range change (R218-R221; that the term of SD
traps on RV32 with its own word is the model's, assumption log 20). An exception is refused while the vector it would go
through is unwritten (70_reset_and_hazards.md R362, U23 of 93_implementation_defined.md; the record of the write is the
model's, assumption log 5). The form of the record of a store to a device is the model's (20_memory.md R87, assumption
log 11). -/
def Obligations.StoresByWidth : Prop :=
  ∀ (s : State) (rs1 rs2 : RegNum) (imm : BitVec 12),
    (Coded (.sb rs1 rs2 imm) 0x00000023 0x0000707F ∧ Coded (.sh rs1 rs2 imm) 0x00001023 0x0000707F ∧
      Coded (.sw rs1 rs2 imm) 0x00002023 0x0000707F ∧ Coded (.sd rs1 rs2 imm) 0x00003023 0x0000707F) ∧
    StoreLaw (.sb rs1 rs2 imm) s rs1 rs2 imm 1 ∧ StoreLaw (.sh rs1 rs2 imm) s rs1 rs2 imm 2 ∧
    StoreLaw (.sw rs1 rs2 imm) s rs1 rs2 imm 4 ∧ (s.xlen = .rv64 → StoreLaw (.sd rs1 rs2 imm) s rs1 rs2 imm 8) ∧
    (s.xlen = .rv32 → TrapsIllegal (.sd rs1 rs2 imm) s)

/-- Memory is little-endian at every width: a load of what was stored returns the low bytes of the value, and byte k of
the range is bits [8k+7:8k] of it (20_memory.md R82, R95). -/
def Obligations.StoredValueReadsBack : Prop :=
  ∀ (s t : State) (a : Word) (n : Nat) (v : Word), n ≤ 8 → Readable s a.toNat n .main → Writable s a.toNat n .main →
    memWrite s a n v = .ok t →
    (∃ r, memRead t a n = .ok (r, t) ∧ r.toNat = v.toNat % 2 ^ (8 * n)) ∧
      ∀ k, k < n → (memByte t.mem (a.toNat + k)).toNat = v.toNat / 256 ^ k % 256

/-! ## Control and status registers -/

/-- The implemented registers are those of the table, at its addresses (10_state.md R29, R50). -/
def Obligations.CsrAddressesAreTheTables : Prop :=
  ∀ (xl : Xlen) (a : BitVec 12) (c : Csr), csrAt xl a = some c ↔ a.toNat = addressOf c ∧ existsOn xl c

/-- The six CSR instructions: the old value to `rd`, the new value to the register, the next instruction (45_csr.md
R201-R206). The set and clear forms combine their mask with the value read, but for bit 9 of `mip`, where they take
`seip_sw`. An exception is refused while the vector it would go through is unwritten (70_reset_and_hazards.md R362, U23
of 93_implementation_defined.md; the record of the write is the model's, assumption log 5). -/
def Obligations.CsrInstructionsReadAndWrite : Prop :=
  ∀ (s : State) (rd r : RegNum) (csr : BitVec 12),
    (Coded (.csrrw rd csr r) 0x00001073 0x0000707F ∧ Coded (.csrrs rd csr r) 0x00002073 0x0000707F ∧
      Coded (.csrrc rd csr r) 0x00003073 0x0000707F ∧ Coded (.csrrwi rd csr r) 0x00005073 0x0000707F ∧
      Coded (.csrrsi rd csr r) 0x00006073 0x0000707F ∧ Coded (.csrrci rd csr r) 0x00007073 0x0000707F) ∧
    CsrLaw (.csrrw rd csr r) s rd csr true (fun _ => s.x r) ∧
    CsrLaw (.csrrs rd csr r) s rd csr (r != 0#5) (fun c => modified c s ||| s.x r) ∧
    CsrLaw (.csrrc rd csr r) s rd csr (r != 0#5) (fun c => modified c s &&& ~~~s.x r) ∧
    CsrLaw (.csrrwi rd csr r) s rd csr true (fun _ => BitVec.ofNat 64 r.toNat) ∧
    CsrLaw (.csrrsi rd csr r) s rd csr (r != 0#5) (fun c => modified c s ||| BitVec.ofNat 64 r.toNat) ∧
    CsrLaw (.csrrci rd csr r) s rd csr (r != 0#5) (fun c => modified c s &&& ~~~BitVec.ofNat 64 r.toNat)

/-- A write of a non-zero value to `satp` is refused, by each instruction that can write one (10_state.md R46 tells a model
to refuse it; assumption log 15). CSRRC and CSRRCI only clear bits of the 0 that is read there. -/
def Obligations.SatpNonZeroIsRefused : Prop :=
  ∀ (s : State) (rd r : RegNum), CsrPasses s 0x180 true →
    (s.x r ≠ 0 → exec (.csrrw rd 0x180 r) s = .refused .satpNonZero ∧
      exec (.csrrs rd 0x180 r) s = .refused .satpNonZero) ∧
    (r ≠ 0#5 → exec (.csrrwi rd 0x180 r) s = .refused .satpNonZero ∧
      exec (.csrrsi rd 0x180 r) s = .refused .satpNonZero)

/-- A read/write register reads as the field of the state that trap entry, MRET, SRET and the masks act on, and reads back the
value written, in its writable bits (10_state.md R30, R34-R36, R39-R45, R47); the last for `mstatus` when the value's MPP
field is not 2. -/
def Obligations.CsrReadsBackWhatWasWritten : Prop :=
  ∀ (c : Csr) (s : State),
    (∀ y, fieldOf c s = some y → csrRead c s = narrow s.xlen y) ∧
    ∀ (u : State) (v x : Word), csrWrite c v s = .ok u → readsBack c s v = some x →
      (c = .mstatus → ¬(v.getLsbD 12 = true ∧ v.getLsbD 11 = false)) → csrRead c u = x

/-- A write of the illegal value 2 to MPP leaves MPP with some legal value and writes the other bits as usual (10_state.md
R30; which value is the platform's, assumption log 13). -/
def Obligations.IllegalMppWriteLeavesLegalValue : Prop :=
  ∀ (s u : State) (v : Word), csrWrite .mstatus v s = .ok u → v.getLsbD 12 = true → v.getLsbD 11 = false →
    u.mstatus.extractLsb' 11 2 ≠ 2#2 ∧
      ∀ k, k < 64 → k ≠ 11 → k ≠ 12 →
        u.mstatus.getLsbD k = if (0x007E19AA#64).getLsbD k then v.getLsbD k else s.mstatus.getLsbD k

/-- A write to one register leaves every register that shares no storage with it as it reads, and changes nothing outside
the control registers (45_csr.md R200); a trap vector counts as written from its first write on (70_reset_and_hazards.md
R362; the record of it is the model's, assumption log 5). -/
def Obligations.CsrWriteLeavesOthers : Prop :=
  ∀ (c d : Csr) (s u : State) (v : Word), csrWrite c v s = .ok u →
    (shares c d = false → csrRead d u = csrRead d s) ∧
      (u.mtvecWritten = true ↔ s.mtvecWritten = true ∨ c = .mtvec) ∧
      (u.stvecWritten = true ↔ s.stvecWritten = true ∨ c = .stvec) ∧ SameRegs s u ∧ SameBytes s u ∧ SameOutside s u ∧ u.pc = s.pc ∧
      u.priv = s.priv ∧ u.wfiWait = s.wfiWait ∧ u.staleFetch = s.staleFetch ∧ u.ioHistory = s.ioHistory

/-- `mip` is assembled from stored bits and sampled lines; a write reaches SSIP, STIP and the software half of SEIP; the
set and clear forms modify that half alone (10_state.md R37). -/
def Obligations.PendingBitsAreAssembled : Prop :=
  ∀ (s u : State) (v : Word),
    (∀ k, k < 64 → (csrRead .mip s).getLsbD k =
      if k = 1 then s.ssip else if k = 3 then s.ext.msip else if k = 5 then s.stip else if k = 7 then s.ext.mtip
        else if k = 9 then (s.seipSw || s.ext.seipExt) else if k = 11 then s.ext.meip else false) ∧
    (∀ k, k < 64 → (csrModifyBase .mip s).getLsbD k = if k = 9 then s.seipSw else (csrRead .mip s).getLsbD k) ∧
    (csrWrite .mip v s = .ok u → u.ssip = v.getLsbD 1 ∧ u.stip = v.getLsbD 5 ∧ u.seipSw = v.getLsbD 9 ∧ u.ext = s.ext)

/-- `sstatus`, `sie` and `sip` are views of `mstatus`, `mie` and `mip`; a write changes those bits and no other control
register (10_state.md R31, R38). -/
def Obligations.SupervisorViews : Prop :=
  ∀ (s u : State) (v : Word),
    (∀ k, k < s.xlen.bits → (csrRead .sstatus s).getLsbD k =
      if k = 1 ∨ k = 5 ∨ k = 8 ∨ k = 18 ∨ k = 19 then s.mstatus.getLsbD k else decide (k = 33)) ∧
    (∀ k, k < s.xlen.bits → (csrRead .sie s).getLsbD k =
      (s.mie.getLsbD k && s.mideleg.getLsbD k && decide (k = 1 ∨ k = 5 ∨ k = 9))) ∧
    (∀ k, k < s.xlen.bits → (csrRead .sip s).getLsbD k =
      ((csrRead .mip s).getLsbD k && s.mideleg.getLsbD k && decide (k = 1 ∨ k = 5 ∨ k = 9))) ∧
    (csrWrite .sstatus v s = .ok u → SameControl { s with mstatus := u.mstatus } u ∧ ∀ k, k < 64 → u.mstatus.getLsbD k =
      if k = 1 ∨ k = 5 ∨ k = 8 ∨ k = 18 ∨ k = 19 then v.getLsbD k else s.mstatus.getLsbD k) ∧
    (csrWrite .sie v s = .ok u → SameControl { s with mie := u.mie } u ∧ ∀ k, k < 64 → u.mie.getLsbD k =
      if (k = 1 ∨ k = 5 ∨ k = 9) ∧ s.mideleg.getLsbD k = true then v.getLsbD k else s.mie.getLsbD k) ∧
    (csrWrite .sip v s = .ok u → SameControl { s with ssip := u.ssip } u ∧
      u.ssip = if s.mideleg.getLsbD 1 = true then v.getLsbD 1 else s.ssip)

/-- The counters: the shadows read them, RV32 reads and writes them by halves (10_state.md R47, R48). -/
def Obligations.CountersByHalves : Prop :=
  ∀ (s u : State) (v : Word),
    csrRead .cycle s = csrRead .mcycle s ∧ csrRead .instret s = csrRead .minstret s ∧
    (s.xlen = .rv64 → csrRead .mcycle s = s.mcycle ∧ csrRead .minstret s = s.minstret ∧ csrRead .time s = s.ext.mtime ∧
      (csrWrite .mcycle v s = .ok u → u.mcycle = v) ∧ (csrWrite .minstret v s = .ok u → u.minstret = v)) ∧
    (s.xlen = .rv32 →
      (csrRead .mcycle s).toNat = s.mcycle.toNat % 2 ^ 32 ∧ (csrRead .mcycleh s).toNat = s.mcycle.toNat / 2 ^ 32 ∧
      (csrRead .minstret s).toNat = s.minstret.toNat % 2 ^ 32 ∧
      (csrRead .minstreth s).toNat = s.minstret.toNat / 2 ^ 32 ∧
      csrRead .cycleh s = csrRead .mcycleh s ∧ csrRead .instreth s = csrRead .minstreth s ∧
      (csrRead .time s).toNat = s.ext.mtime.toNat % 2 ^ 32 ∧ (csrRead .timeh s).toNat = s.ext.mtime.toNat / 2 ^ 32 ∧
      (csrWrite .mcycle v s = .ok u →
        u.mcycle.toNat = s.mcycle.toNat / 2 ^ 32 * 2 ^ 32 + v.toNat % 2 ^ 32) ∧
      (csrWrite .mcycleh v s = .ok u →
        u.mcycle.toNat = v.toNat % 2 ^ 32 * 2 ^ 32 + s.mcycle.toNat % 2 ^ 32) ∧
      (csrWrite .minstret v s = .ok u →
        u.minstret.toNat = s.minstret.toNat / 2 ^ 32 * 2 ^ 32 + v.toNat % 2 ^ 32) ∧
      (csrWrite .minstreth v s = .ok u →
        u.minstret.toNat = v.toNat % 2 ^ 32 * 2 ^ 32 + s.minstret.toNat % 2 ^ 32))

/-- The hardwired registers: `misa`, the identification registers, `satp` and the hpm registers read their constants, and
a write to `misa`, an `mhpmcounter` or an `mhpmevent` is ignored (10_state.md R32, R33, R46, R49). -/
def Obligations.HardwiredRegisters : Prop :=
  ∀ (s : State) (v : Word) (n : Nat),
    (csrRead .misa s).toNat = (match s.xlen with | .rv32 => 0x40140100 | .rv64 => 0x8000000000140100) ∧
    csrRead .mvendorid s = 0 ∧ csrRead .marchid s = 0 ∧ csrRead .mimpid s = 0 ∧ csrRead .mhartid s = 0 ∧
    csrRead .satp s = 0 ∧ csrRead (.mhpmcounter n) s = 0 ∧ csrRead (.mhpmcounterh n) s = 0 ∧
    csrRead (.mhpmevent n) s = 0 ∧ csrRead (.hpmcounter n) s = 0 ∧ csrRead (.hpmcounterh n) s = 0 ∧
    csrWrite .misa v s = .ok s ∧ csrWrite (.mhpmcounter n) v s = .ok s ∧ csrWrite (.mhpmcounterh n) v s = .ok s ∧
    csrWrite (.mhpmevent n) v s = .ok s

/-! ## Privileged instructions -/

/-- MRET, illegal below M-mode; in M-mode, for a legal MPP: MIE takes MPIE, MPIE is 1, MPP is U, the mode is the old MPP
and `pc` is `mepc` (47_privileged.md R230). An exception is refused while the vector it would go through is unwritten
(70_reset_and_hazards.md R362, U23 of 93_implementation_defined.md; the record of the write is the model's, assumption
log 5). -/
def Obligations.MretReturns : Prop :=
  ∀ s : State, encode .mret = 0x30200073 ∧
    (s.priv = .m → s.mstatus.extractLsb' 11 2 ≠ 2#2 →
      ∃ t, exec .mret s = .next t ∧ t.pc = s.mepc ∧ t.priv.level = (s.mstatus.extractLsb' 11 2).toNat ∧
        (∀ k, k < 64 → t.mstatus.getLsbD k =
          if k = 3 then s.mstatus.getLsbD 7 else if k = 7 then true else if k = 11 ∨ k = 12 then false
            else s.mstatus.getLsbD k) ∧
        t.minstret = s.minstret + 1 ∧ SameRegs s t ∧ SameControl { s with mstatus := t.mstatus } t ∧ SameOutside s t ∧
        SameBytes s t ∧ t.wfiWait = s.wfiWait ∧ t.staleFetch = s.staleFetch ∧ t.ioHistory = s.ioHistory) ∧
    (s.priv ≠ .m → TrapsIllegal .mret s)

/-- SRET, illegal in U-mode and in S-mode with TSR = 1; else: SIE takes SPIE, SPIE is 1, SPP is 0, the mode is S or U by
the old SPP and `pc` is `sepc` (R231). An exception is refused while the vector it would go through is unwritten
(70_reset_and_hazards.md R362, U23 of 93_implementation_defined.md; the record of the write is the model's, assumption
log 5). -/
def Obligations.SretReturns : Prop :=
  ∀ s : State, encode .sret = 0x10200073 ∧
    (s.priv = .m ∨ s.priv = .s ∧ s.mstatus.getLsbD 22 = false →
      ∃ t, exec .sret s = .next t ∧ t.pc = s.sepc ∧ t.priv = (if s.mstatus.getLsbD 8 then .s else .u) ∧
        (∀ k, k < 64 → t.mstatus.getLsbD k =
          if k = 1 then s.mstatus.getLsbD 5 else if k = 5 then true else if k = 8 then false
            else s.mstatus.getLsbD k) ∧
        t.minstret = s.minstret + 1 ∧ SameRegs s t ∧ SameControl { s with mstatus := t.mstatus } t ∧ SameOutside s t ∧
        SameBytes s t ∧ t.wfiWait = s.wfiWait ∧ t.staleFetch = s.staleFetch ∧ t.ioHistory = s.ioHistory) ∧
    (s.priv = .u ∨ s.priv = .s ∧ s.mstatus.getLsbD 22 = true → TrapsIllegal .sret s)

/-- WFI, illegal in U-mode and in S-mode with TW = 1; else it retires and makes the hart wait (R232). An exception is
refused while the vector it would go through is unwritten (70_reset_and_hazards.md R362, U23 of
93_implementation_defined.md; the record of the write is the model's, assumption log 5). -/
def Obligations.WfiWaits : Prop :=
  ∀ s : State, encode .wfi = 0x10500073 ∧
    (s.priv = .m ∨ s.priv = .s ∧ s.mstatus.getLsbD 21 = false →
      ∃ t, exec .wfi s = .next t ∧ t.wfiWait = true ∧ GoesOn s t ∧ SameRegs s t ∧ SameControl s t ∧ SameOutside s t ∧
        SameBytes s t ∧ t.priv = s.priv ∧ t.staleFetch = s.staleFetch ∧ t.ioHistory = s.ioHistory) ∧
    (s.priv = .u ∨ s.priv = .s ∧ s.mstatus.getLsbD 21 = true → TrapsIllegal .wfi s)

/-- SFENCE.VMA, illegal in U-mode and in S-mode with TVM = 1; else it changes nothing but `pc` and `minstret`, whatever
its registers hold (R233). An exception is refused while the vector it would go through is unwritten
(70_reset_and_hazards.md R362, U23 of 93_implementation_defined.md; the record of the write is the model's, assumption
log 5). -/
def Obligations.SfenceVmaGoesOn : Prop :=
  ∀ (s : State) (rs1 rs2 : RegNum), Coded (.sfenceVma rs1 rs2) 0x12000073 0xFE007FFF ∧
    (s.priv = .m ∨ s.priv = .s ∧ s.mstatus.getLsbD 20 = false →
      ∃ t, exec (.sfenceVma rs1 rs2) s = .next t ∧ SameRegs s t ∧ GoesOn s t ∧ Plain s t) ∧
    (s.priv = .u ∨ s.priv = .s ∧ s.mstatus.getLsbD 20 = true → TrapsIllegal (.sfenceVma rs1 rs2) s)

/-! ## Traps and interrupts -/

/-- Taking an exception and taking an interrupt: the target mode, the saved registers, `mstatus`, the vector, and all
that stays (60_exceptions.md R320-R324). -/
def Obligations.TrapEntry : Prop :=
  ∀ (s : State) (e : Exc) (v : Word) (i : Interrupt),
    Raised s (s.takeException e v) e v.toNat ∧ Interrupted s (s.takeInterrupt i) i

/-- When an interrupt can be taken (R332). -/
def Obligations.TakeableByMasks : Prop :=
  ∀ (s : State) (i : Interrupt), takeable s i = true ↔ Takeable s i

/-- The interrupt taken is takeable, and no other takeable one comes before it: those for M-mode first, then in the order
MEI, MSI, MTI, SEI, SSI, STI (R333; at which step one is taken is free, assumption log 9). -/
def Obligations.HighestPriorityIsTaken : Prop :=
  ∀ (s : State) (i : Interrupt), interruptNow s = some i →
    Takeable s i ∧ ∀ j, j ≠ i → Takeable s j →
      (s.mideleg.getLsbD i.code = false ∧ s.mideleg.getLsbD j.code = true) ∨
        (s.mideleg.getLsbD i.code = s.mideleg.getLsbD j.code ∧ rank i < rank j)

/-- After reset no interrupt can be taken, whatever the platform drives, and none ever in M-mode while MIE is 0
(70_reset_and_hazards.md R362). -/
def Obligations.NoInterruptAfterReset : Prop :=
  (∀ (p : Platform) (m : Memory) (d : Draw) (i : Interrupt), takeable ((State.resetFor p m).sampleWith d) i = false) ∧
    ∀ (s : State) (i : Interrupt), s.priv = .m → s.mstatus.getLsbD 3 = false → takeable s i = false

/-- What reset defines (10_state.md R60, 70_reset_and_hazards.md R361): mode, `pc`, MIE, MPRV, `mcause`, the wait and the
stale bytes; memory and the parameters stay, and no trap vector counts as written (R362; the record of it is the model's,
assumption log 5). That the sampled inputs stay as they were is the model's choice, assumption log 22. -/
def Obligations.ResetDefinesState : Prop :=
  ∀ s : State, s.resetMove.priv = .m ∧ s.resetMove.pc = s.platform.resetVector ∧
    s.resetMove.mstatus.getLsbD 3 = false ∧ s.resetMove.mstatus.getLsbD 17 = false ∧ csrRead .mcause s.resetMove = 0 ∧
    s.resetMove.wfiWait = false ∧ s.resetMove.staleFetch = [] ∧ s.resetMove.x 0#5 = 0 ∧
    s.resetMove.mem = s.mem ∧ s.resetMove.platform = s.platform ∧ s.resetMove.ext = s.ext ∧
    s.resetMove.mtvecWritten = false ∧ s.resetMove.stvecWritten = false

/-! ## Completion of the CSR instructions -/

/-- Where the check passes and no non-zero value goes to `satp`, each of the six CSR instructions completes (45_csr.md R200;
the excepted write to `satp` is refused, as SatpNonZeroIsRefused says). -/
def Obligations.CsrInstructionsComplete : Prop :=
  ∀ (s : State) (rd r : RegNum) (csr : BitVec 12),
    (CsrPasses s csr true → (csr = 0x180#12 → s.x r = 0) → CsrCompletes (.csrrw rd csr r) s rd csr) ∧
    (CsrPasses s csr (r != 0#5) → (csr = 0x180#12 → s.x r = 0) → CsrCompletes (.csrrs rd csr r) s rd csr) ∧
    (CsrPasses s csr (r != 0#5) → CsrCompletes (.csrrc rd csr r) s rd csr) ∧
    (CsrPasses s csr true → (csr = 0x180#12 → r = 0#5) → CsrCompletes (.csrrwi rd csr r) s rd csr) ∧
    (CsrPasses s csr (r != 0#5) → (csr = 0x180#12 → r = 0#5) → CsrCompletes (.csrrsi rd csr r) s rd csr) ∧
    (CsrPasses s csr (r != 0#5) → CsrCompletes (.csrrci rd csr r) s rd csr)
end

