-- ==== Sys2Proof/Laws/Memory.lean ====
section
/-! SUPPORT. The laws of memory: what a byte reads after a write, that every operation keeps the canonical form, and
the set of stale bytes. -/

namespace Sys2Proof.Machine

/-! ## One byte -/

theorem memByte_memErase (m : Memory) (a b : Nat) :
    memByte (memErase m a) b = if b = a then defaultByte else memByte m b := by
  induction m with
  | nil => simp [memErase, memByte]
  | cons p rest ih =>
    obtain ⟨k, c⟩ := p
    by_cases hk : k = a
    · subst hk
      simp only [memErase, if_true, memByte, ih]
      by_cases hb : b = k
      · simp [hb]
      · simp [hb, Ne.symm hb]
    · simp only [memErase, if_neg hk, memByte, ih]
      by_cases hb : b = a
      · subst hb; simp [hk]
      · simp [hb]

theorem memByte_memInsert (m : Memory) (a : Nat) (v : Byte) (b : Nat) (h : ∀ p ∈ m, p.1 ≠ a) :
    memByte (memInsert m a v) b = if b = a then v else memByte m b := by
  induction m with
  | nil => simp only [memInsert, memByte, eq_comm]
  | cons p rest ih =>
    obtain ⟨k, c⟩ := p
    have hk : k ≠ a := h (k, c) (by simp)
    have ih := ih fun q hq => h q (by simp [hq])
    by_cases hak : a < k
    · simp only [memInsert, if_pos hak, memByte]
      by_cases hb : b = a
      · simp [hb]
      · simp [hb, Ne.symm hb]
    · simp only [memInsert, if_neg hak, memByte, ih]
      by_cases hb : b = a
      · subst hb; simp [hk]
      · simp [hb]

theorem mem_memErase {m : Memory} {a : Nat} {p : Host.Cell} : p ∈ memErase m a ↔ p ∈ m ∧ p.1 ≠ a := by
  induction m with
  | nil => simp [memErase]
  | cons q rest ih =>
    obtain ⟨k, c⟩ := q
    by_cases hk : k = a
    · simp only [memErase, if_pos hk, ih, List.mem_cons]
      constructor
      · rintro ⟨h1, h2⟩; exact ⟨.inr h1, h2⟩
      · rintro ⟨rfl | h1, h2⟩
        · exact absurd hk h2
        · exact ⟨h1, h2⟩
    · simp only [memErase, if_neg hk, List.mem_cons, ih]
      constructor
      · rintro (rfl | ⟨h1, h2⟩)
        · exact ⟨.inl rfl, hk⟩
        · exact ⟨.inr h1, h2⟩
      · rintro ⟨rfl | h1, h2⟩
        · exact .inl rfl
        · exact .inr ⟨h1, h2⟩

theorem mem_memInsert {m : Memory} {a : Nat} {v : Byte} {p : Host.Cell} :
    p ∈ memInsert m a v ↔ p = (a, v) ∨ p ∈ m := by
  induction m with
  | nil => simp [memInsert]
  | cons q rest ih =>
    obtain ⟨k, c⟩ := q
    by_cases hak : a < k
    · simp [memInsert, hak]
    · simp only [memInsert, if_neg hak, List.mem_cons, ih]
      tauto

/-- Read after write of one byte: the written address reads the value, every other reads as before. -/
theorem memByte_memSet (m : Memory) (a : Nat) (v : Byte) (b : Nat) :
    memByte (memSet m a v) b = if b = a then v else memByte m b := by
  unfold memSet
  split
  · next h => rw [memByte_memErase, h]
  · rw [memByte_memInsert _ _ _ _ fun p hp => (mem_memErase.mp hp).2, memByte_memErase]
    by_cases hb : b = a <;> simp [hb]

/-! ## The canonical form -/

theorem Memory.wf_iff (m : Memory) :
    Memory.wf m = true ↔ (m.Pairwise fun p q => p.1 < q.1) ∧ ∀ p ∈ m, p.2 ≠ defaultByte := by
  simp [Memory.wf]

theorem memErase_wf {m : Memory} (a : Nat) (h : Memory.wf m = true) : Memory.wf (memErase m a) = true := by
  rw [Memory.wf_iff] at h ⊢
  obtain ⟨hs, hd⟩ := h
  refine ⟨?_, fun p hp => hd p (mem_memErase.mp hp).1⟩
  clear hd
  induction m with
  | nil => simp [memErase]
  | cons q rest ih =>
    obtain ⟨k, c⟩ := q
    rw [List.pairwise_cons] at hs
    by_cases hk : k = a
    · simpa only [memErase, if_pos hk] using ih hs.2
    · simp only [memErase, if_neg hk, List.pairwise_cons]
      exact ⟨fun p hp => hs.1 p (mem_memErase.mp hp).1, ih hs.2⟩

theorem memInsert_wf {m : Memory} {a : Nat} {v : Byte} (hv : v ≠ defaultByte) (hm : ∀ p ∈ m, p.1 ≠ a)
    (h : Memory.wf m = true) : Memory.wf (memInsert m a v) = true := by
  rw [Memory.wf_iff] at h ⊢
  obtain ⟨hs, hd⟩ := h
  refine ⟨?_, fun p hp => ?_⟩
  · clear hd
    induction m with
    | nil => simp [memInsert]
    | cons q rest ih =>
      obtain ⟨k, c⟩ := q
      have hka : k ≠ a := hm (k, c) (by simp)
      rw [List.pairwise_cons] at hs
      by_cases hak : a < k
      · simp only [memInsert, if_pos hak, List.pairwise_cons]
        refine ⟨fun p hp => ?_, hs⟩
        rcases List.mem_cons.mp hp with rfl | hp
        · exact hak
        · exact Nat.lt_trans hak (hs.1 p hp)
      · simp only [memInsert, if_neg hak, List.pairwise_cons]
        refine ⟨fun p hp => ?_, ih (fun p hp => hm p (by simp [hp])) hs.2⟩
        rcases mem_memInsert.mp hp with rfl | hp
        · exact Nat.lt_of_le_of_ne (Nat.le_of_not_lt hak) hka
        · exact hs.1 p hp
  · rcases mem_memInsert.mp hp with rfl | hp
    · exact hv
    · exact hd p hp

/-- A write of one byte keeps the canonical form. -/
theorem memSet_wf {m : Memory} (a : Nat) (v : Byte) (h : Memory.wf m = true) : Memory.wf (memSet m a v) = true := by
  unfold memSet
  split
  · exact memErase_wf a h
  · next hv => exact memInsert_wf hv (fun p hp => (mem_memErase.mp hp).2) (memErase_wf a h)

/-- A write of one byte lists no address but the old ones and its own. -/
theorem mem_memSet {m : Memory} {a : Nat} {v : Byte} {p : Host.Cell} (h : p ∈ memSet m a v) : p.1 = a ∨ p ∈ m := by
  unfold memSet at h
  split at h
  · exact .inr (mem_memErase.mp h).1
  · rcases mem_memInsert.mp h with rfl | h
    · exact .inl rfl
    · exact .inr (mem_memErase.mp h).1

/-! ## Several bytes -/

/-- Byte `b` after a write of `n` bytes at `a`: its own byte of the value inside the range, the old byte outside. -/
theorem memByte_writeBytes (m : Memory) (a n : Nat) (v : Word) (b : Nat) :
    memByte (writeBytes m a n v) b =
      if a ≤ b ∧ b < a + n then (v >>> (8 * (b - a))).setWidth 8 else memByte m b := by
  induction n generalizing m a v with
  | zero => simp only [writeBytes]; rw [if_neg (by omega)]
  | succ n ih =>
    simp only [writeBytes, ih, memByte_memSet]
    by_cases hb : b = a
    · subst hb
      rw [if_neg (by omega), if_pos rfl, if_pos (by omega)]
      simp
    · by_cases hin : a + 1 ≤ b ∧ b < a + 1 + n
      · rw [if_pos hin, if_pos (by omega), ← BitVec.shiftRight_add]
        congr 2; omega
      · rw [if_neg hin, if_neg hb, if_neg (by omega)]

/-- A write of several bytes keeps the canonical form. -/
theorem writeBytes_wf {m : Memory} (a n : Nat) (v : Word) (h : Memory.wf m = true) :
    Memory.wf (writeBytes m a n v) = true := by
  induction n generalizing m a v with
  | zero => exact h
  | succ n ih => exact ih _ _ (memSet_wf _ _ h)

/-- A write of several bytes lists no address but the old ones and those of its range. -/
theorem mem_writeBytes {m : Memory} {a n : Nat} {v : Word} {p : Host.Cell} (h : p ∈ writeBytes m a n v) :
    (a ≤ p.1 ∧ p.1 < a + n) ∨ p ∈ m := by
  induction n generalizing m a v with
  | zero => exact .inr h
  | succ n ih =>
    rcases ih h with h | h
    · exact .inl (by omega)
    · rcases mem_memSet h with h | h
      · exact .inl (by omega)
      · exact .inr h

/-- Bit `j` of the value read is bit `j mod 8` of byte `j / 8`: the lowest address holds the low byte (R82). -/
theorem getLsbD_readBytes (m : Memory) (a n : Nat) (hn : n ≤ 8) (j : Nat) :
    (readBytes m a n).getLsbD j = (decide (j < 8 * n) && (memByte m (a + j / 8)).getLsbD (j % 8)) := by
  induction n generalizing a j with
  | zero => simp [readBytes]
  | succ n ih =>
    simp only [readBytes, BitVec.getLsbD_or, BitVec.getLsbD_setWidth, BitVec.getLsbD_shiftLeft]
    by_cases hj : j < 8
    · simp [hj, Nat.div_eq_of_lt hj, Nat.mod_eq_of_lt hj, show j < 64 by omega, show j < 8 * (n + 1) by omega]
    · have h1 : (memByte m a).getLsbD j = false := BitVec.getLsbD_of_ge _ _ (by omega)
      rw [h1, ih (a + 1) (by omega) (j - 8), show a + 1 + (j - 8) / 8 = a + j / 8 by omega,
        show (j - 8) % 8 = j % 8 by omega]
      by_cases h2 : j < 8 * (n + 1)
      · simp [h2, hj, show j < 64 by omega, show j - 8 < 8 * n by omega]
      · simp [h2, show ¬ j - 8 < 8 * n by omega]

/-- What is read depends on the bytes of the range alone. -/
theorem readBytes_congr {m m' : Memory} {a n : Nat} (h : ∀ b, a ≤ b → b < a + n → memByte m' b = memByte m b) :
    readBytes m' a n = readBytes m a n := by
  induction n generalizing a with
  | zero => rfl
  | succ n ih =>
    simp only [readBytes]
    rw [h a (Nat.le_refl a) (by omega), ih fun b h1 h2 => h b (by omega) (by omega)]

/-- Read after write of one range: the low bytes of the value. -/
theorem readBytes_writeBytes (m : Memory) (a n : Nat) (hn : n ≤ 8) (v : Word) :
    readBytes (writeBytes m a n v) a n = lowBytes n v := by
  apply BitVec.eq_of_getLsbD_eq; intro j hj
  rw [getLsbD_readBytes _ _ _ hn, memByte_writeBytes, lowBytes, BitVec.getLsbD_and, BitVec.getLsbD_ofNat,
    Nat.testBit_two_pow_sub_one]
  by_cases h : j < 8 * n
  · rw [if_pos (by omega)]
    simp only [h, hj, decide_true, Bool.true_and, BitVec.getLsbD_setWidth, BitVec.getLsbD_ushiftRight,
      show j % 8 < 8 by omega, Bool.and_true]
    congr 1; omega
  · simp [h]

/-! ## Stale bytes -/

theorem mem_staleInsert {l : List Nat} {a b : Nat} : b ∈ staleInsert l a ↔ b = a ∨ b ∈ l := by
  induction l with
  | nil => simp [staleInsert]
  | cons k rest ih =>
    simp only [staleInsert]
    split
    · simp
    · split
      · next h => subst h; simp
      · simp only [List.mem_cons, ih]; tauto

theorem mem_staleAdd {l : List Nat} {a n b : Nat} : b ∈ staleAdd l a n ↔ (a ≤ b ∧ b < a + n) ∨ b ∈ l := by
  induction n generalizing l a with
  | zero => simp only [staleAdd]; constructor
            · exact .inr
            · rintro (h | h)
              · omega
              · exact h
  | succ n ih =>
    simp only [staleAdd, ih, mem_staleInsert]
    constructor
    · rintro (h | rfl | h)
      · exact .inl (by omega)
      · exact .inl (by omega)
      · exact .inr h
    · rintro (h | h)
      · by_cases hb : b = a
        · exact .inr (.inl hb)
        · exact .inl (by omega)
      · exact .inr (.inr h)

theorem staleInsert_sorted {l : List Nat} (a : Nat) (h : l.Pairwise fun x y => x < y) :
    (staleInsert l a).Pairwise fun x y => x < y := by
  induction l with
  | nil => simp [staleInsert]
  | cons k rest ih =>
    have hc := List.pairwise_cons.mp h
    simp only [staleInsert]
    split
    · next hak =>
      refine List.pairwise_cons.mpr ⟨fun b hb => ?_, h⟩
      rcases List.mem_cons.mp hb with rfl | hb
      · exact hak
      · exact Nat.lt_trans hak (hc.1 b hb)
    · split
      · exact h
      · next h1 h2 =>
        refine List.pairwise_cons.mpr ⟨fun b hb => ?_, ih hc.2⟩
        rcases mem_staleInsert.mp hb with rfl | hb
        · omega
        · exact hc.1 b hb

/-- Adding a range keeps the addresses rising. -/
theorem staleAdd_sorted {l : List Nat} (a n : Nat) (h : l.Pairwise fun x y => x < y) :
    (staleAdd l a n).Pairwise fun x y => x < y := by
  induction n generalizing l a with
  | zero => exact h
  | succ n ih => exact ih _ (staleInsert_sorted _ h)

/-- The memory of the reset state has the canonical form. -/
theorem reset_memory_wf : Memory.wf State.reset.mem = true := by decide

end Sys2Proof.Machine
end

