-- ==== Sys2Proof/Laws/Access.lean ====
section
/-! SUPPORT. Everything the access primitives of 20_memory.md can do, said once. -/

namespace Sys2Proof.Machine

/-- Everything a successful `MemRead` can be (R90). -/
theorem memRead_ok {s t : State} {a : Word} {n : Nat} {v : Word} (h : memRead s a n = .ok (v, t)) :
    a.toNat % n = 0 ∧ ∃ r, s.platform.regionAt a.toNat n = some r ∧ r.r = true ∧
      ((r.kind = .main ∧ v = readBytes s.mem a.toNat n ∧ t = s) ∨
        (r.kind = .io ∧ v = lowBytes n s.draw.ioValue ∧
          t = { s with ioHistory := s.ioHistory ++ [.read a n v] })) := by
  unfold memRead at h
  split at h
  · cases h
  · next hal =>
    refine ⟨by omega, ?_⟩
    split at h
    · cases h
    · next r hr =>
      refine ⟨r, hr, ?_⟩
      split at h
      · cases h
      · next hrd =>
        refine ⟨by simpa using hrd, ?_⟩
        split at h
        · next hk => cases h; exact .inl ⟨hk, rfl, rfl⟩
        · next hk => cases h; exact .inr ⟨hk, rfl, rfl⟩

/-- Everything a failed `MemRead` can be (R90, R310). -/
theorem memRead_error {s : State} {a : Word} {n : Nat} {e : Exc} (h : memRead s a n = .error e) :
    (a.toNat % n ≠ 0 ∧ e = .loadAddrMisaligned) ∨
      (a.toNat % n = 0 ∧ (∀ r, s.platform.regionAt a.toNat n = some r → r.r = false) ∧ e = .loadAccessFault) := by
  unfold memRead at h
  split at h
  · next hal => cases h; exact .inl ⟨hal, rfl⟩
  · next hal =>
    split at h
    · next hr => cases h; exact .inr ⟨by omega, by simp [hr], rfl⟩
    · next r hr =>
      split at h
      · next hrd => cases h; exact .inr ⟨by omega, fun r' hr' => by rw [hr] at hr'; cases hr'; exact hrd, rfl⟩
      · split at h <;> cases h

/-- A `MemRead` in a readable `main` region (R90). -/
theorem memRead_main {s : State} {a : Word} {n : Nat} {r : Region} (hal : a.toNat % n = 0)
    (hr : s.platform.regionAt a.toNat n = some r) (hrd : r.r = true) (hk : r.kind = .main) :
    memRead s a n = .ok (readBytes s.mem a.toNat n, s) := by
  simp [memRead, hal, hr, hrd, hk]

/-- A `MemRead` in a readable `io` region (R90). -/
theorem memRead_io {s : State} {a : Word} {n : Nat} {r : Region} (hal : a.toNat % n = 0)
    (hr : s.platform.regionAt a.toNat n = some r) (hrd : r.r = true) (hk : r.kind = .io) :
    memRead s a n = .ok (lowBytes n s.draw.ioValue,
      { s with ioHistory := s.ioHistory ++ [.read a n (lowBytes n s.draw.ioValue)] }) := by
  simp [memRead, hal, hr, hrd, hk]

/-- A misaligned `MemRead` (R90). -/
theorem memRead_misaligned {s : State} {a : Word} {n : Nat} (hal : a.toNat % n ≠ 0) :
    memRead s a n = .error .loadAddrMisaligned := by simp [memRead, hal]

/-- An aligned `MemRead` whose bytes are in no readable region (R90). -/
theorem memRead_denied {s : State} {a : Word} {n : Nat} (hal : a.toNat % n = 0)
    (hr : ∀ r, s.platform.regionAt a.toNat n = some r → r.r = false) :
    memRead s a n = .error .loadAccessFault := by
  unfold memRead
  rw [if_neg (by omega)]
  split
  · rfl
  · next r h => simp [hr r h]

/-- Everything a successful `MemWrite` can be (R91). -/
theorem memWrite_ok {s t : State} {a : Word} {n : Nat} {v : Word} (h : memWrite s a n v = .ok t) :
    a.toNat % n = 0 ∧ ∃ r, s.platform.regionAt a.toNat n = some r ∧ r.w = true ∧
      ((r.kind = .main ∧
          t = { s with
            mem := writeBytes s.mem a.toNat n v
            staleFetch := if r.x then staleAdd s.staleFetch a.toNat n else s.staleFetch }) ∨
        (r.kind = .io ∧ t = { s with ioHistory := s.ioHistory ++ [.write a n (lowBytes n v)] })) := by
  unfold memWrite at h
  split at h
  · cases h
  · next hal =>
    refine ⟨by omega, ?_⟩
    split at h
    · cases h
    · next r hr =>
      refine ⟨r, hr, ?_⟩
      split at h
      · cases h
      · next hw =>
        refine ⟨by simpa using hw, ?_⟩
        split at h
        · next hk => cases h; exact .inl ⟨hk, rfl⟩
        · next hk => cases h; exact .inr ⟨hk, rfl⟩

/-- Everything a failed `MemWrite` can be (R91, R310). -/
theorem memWrite_error {s : State} {a : Word} {n : Nat} {v : Word} {e : Exc} (h : memWrite s a n v = .error e) :
    (a.toNat % n ≠ 0 ∧ e = .storeAddrMisaligned) ∨
      (a.toNat % n = 0 ∧ (∀ r, s.platform.regionAt a.toNat n = some r → r.w = false) ∧ e = .storeAccessFault) := by
  unfold memWrite at h
  split at h
  · next hal => cases h; exact .inl ⟨hal, rfl⟩
  · next hal =>
    split at h
    · next hr => cases h; exact .inr ⟨by omega, by simp [hr], rfl⟩
    · next r hr =>
      split at h
      · next hw => cases h; exact .inr ⟨by omega, fun r' hr' => by rw [hr] at hr'; cases hr'; exact hw, rfl⟩
      · split at h <;> cases h

/-- A `MemWrite` in a writable `main` region (R91). -/
theorem memWrite_main {s : State} {a : Word} {n : Nat} {v : Word} {r : Region} (hal : a.toNat % n = 0)
    (hr : s.platform.regionAt a.toNat n = some r) (hw : r.w = true) (hk : r.kind = .main) :
    memWrite s a n v = .ok { s with
      mem := writeBytes s.mem a.toNat n v
      staleFetch := if r.x then staleAdd s.staleFetch a.toNat n else s.staleFetch } := by
  simp [memWrite, hal, hr, hw, hk]

/-- A `MemWrite` in a writable `io` region (R91). -/
theorem memWrite_io {s : State} {a : Word} {n : Nat} {v : Word} {r : Region} (hal : a.toNat % n = 0)
    (hr : s.platform.regionAt a.toNat n = some r) (hw : r.w = true) (hk : r.kind = .io) :
    memWrite s a n v = .ok { s with ioHistory := s.ioHistory ++ [.write a n (lowBytes n v)] } := by
  simp [memWrite, hal, hr, hw, hk]

/-- A misaligned `MemWrite` (R91). -/
theorem memWrite_misaligned {s : State} {a : Word} {n : Nat} {v : Word} (hal : a.toNat % n ≠ 0) :
    memWrite s a n v = .error .storeAddrMisaligned := by simp [memWrite, hal]

/-- An aligned `MemWrite` whose bytes are in no writable region (R91). -/
theorem memWrite_denied {s : State} {a : Word} {n : Nat} {v : Word} (hal : a.toNat % n = 0)
    (hr : ∀ r, s.platform.regionAt a.toNat n = some r → r.w = false) :
    memWrite s a n v = .error .storeAccessFault := by
  unfold memWrite
  rw [if_neg (by omega)]
  split
  · rfl
  · next r h => simp [hr r h]

/-- Everything `Fetch` can be (R92, R101). -/
theorem fetch_cases (s : State) :
    (s.pc.toNat % 4 ≠ 0 ∧ fetch s = .misaligned) ∨
      (s.pc.toNat % 4 = 0 ∧
        ((∀ r, s.platform.regionAt s.pc.toNat 4 = some r → r.x = false ∨ r.kind = .io) ∧ fetch s = .accessFault ∨
          ∃ r, s.platform.regionAt s.pc.toNat 4 = some r ∧ r.x = true ∧ r.kind = .main ∧
            ((∃ a ∈ s.staleFetch, s.pc.toNat ≤ a ∧ a < s.pc.toNat + 4) ∧ fetch s = .stale ∨
              (∀ a ∈ s.staleFetch, ¬(s.pc.toNat ≤ a ∧ a < s.pc.toNat + 4)) ∧
                fetch s = .word (memWord s.mem s.pc.toNat)))) := by
  unfold fetch
  by_cases hal : s.pc.toNat % 4 = 0
  · refine .inr ⟨hal, ?_⟩
    rw [if_neg (by omega)]
    cases hr : s.platform.regionAt s.pc.toNat 4 with
    | none => exact .inl ⟨by simp, rfl⟩
    | some r =>
      by_cases hx : r.x = false ∨ r.kind = .io
      · exact .inl ⟨fun r' h => by cases h; exact hx, by simp [hx]⟩
      · refine .inr ⟨r, rfl, by simpa using fun h => hx (.inl h), ?_, ?_⟩
        · cases hk : r.kind with
          | main => rfl
          | io => exact absurd (.inr hk) hx
        · by_cases hst : (s.staleFetch.any fun a => decide (s.pc.toNat ≤ a) && decide (a < s.pc.toNat + 4)) = true
          · refine .inl ⟨?_, by simp [hx, hst]⟩
            simpa using hst
          · refine .inr ⟨?_, by simp [hx, hst]⟩
            simpa using hst
  · exact .inl ⟨hal, by rw [if_pos hal]⟩

/-- The region found for a range is one of `pma` and holds the range (R81). -/
theorem regionAt_some {p : Platform} {a n : Nat} {r : Region} (h : p.regionAt a n = some r) :
    r ∈ p.pma ∧ r.base ≤ a ∧ a + n ≤ r.base + r.size := by
  unfold Platform.regionAt at h
  have h1 := List.mem_of_find?_eq_some h
  have h2 := List.find?_some h
  simp at h2
  exact ⟨h1, h2.1, h2.2⟩

/-- Every byte of a range inside a `main` region belongs to a `main` region. -/
theorem isMain_of_regionAt {p : Platform} {a n b : Nat} {r : Region} (h : p.regionAt a n = some r)
    (hk : r.kind = .main) (h1 : a ≤ b) (h2 : b < a + n) : p.isMain b = true := by
  obtain ⟨hm, hb, he⟩ := regionAt_some h
  unfold Platform.isMain
  rw [List.any_eq_true]
  exact ⟨r, hm, by simp [hk]; omega⟩

end Sys2Proof.Machine
end

