-- ==== Sys2Proof/Laws/Bits.lean ====
section
/-! SUPPORT. What narrowing, extension and single-bit updates do, read as numbers and bit by bit. -/

namespace Sys2Proof.Machine

theorem narrow_toNat (xl : Xlen) (v : Word) : (narrow xl v).toNat = v.toNat % 2 ^ xl.bits := by
  cases xl with
  | rv32 => simp only [narrow, Xlen.bits, BitVec.toNat_setWidth]; omega
  | rv64 => simp only [narrow, Xlen.bits]; omega

theorem narrow_lt (xl : Xlen) (v : Word) : (narrow xl v).toNat < 2 ^ xl.bits := by
  rw [narrow_toNat]; exact Nat.mod_lt _ (Nat.two_pow_pos _)

theorem getLsbD_narrow (xl : Xlen) (v : Word) (i : Nat) :
    (narrow xl v).getLsbD i = (decide (i < xl.bits) && v.getLsbD i) := by
  cases xl with
  | rv32 =>
    by_cases h : i < 32
    · simp [narrow, Xlen.bits, h, BitVec.getLsbD_setWidth]; omega
    · simp [narrow, Xlen.bits, h, BitVec.getLsbD_setWidth]
  | rv64 =>
    by_cases h : i < 64
    · simp [narrow, Xlen.bits, h]
    · simp [narrow, Xlen.bits, h, BitVec.getLsbD_of_ge v i (by omega)]

/-- A value below 2^XLEN is an XLEN-bit value. -/
theorem narrow_of_lt {xl : Xlen} {v : Word} (h : v.toNat < 2 ^ xl.bits) : narrow xl v = v := by
  apply BitVec.eq_of_toNat_eq; rw [narrow_toNat, Nat.mod_eq_of_lt h]

@[simp] theorem narrow_narrow (xl : Xlen) (v : Word) : narrow xl (narrow xl v) = narrow xl v :=
  narrow_of_lt (narrow_lt xl v)

@[simp] theorem narrow_zero (xl : Xlen) : narrow xl 0#64 = 0#64 := by cases xl <;> rfl

@[simp] theorem narrow_rv64 (v : Word) : narrow .rv64 v = v := rfl

/-- A value is of XLEN bits exactly when it is below 2^XLEN. -/
theorem narrow_eq_self_iff (xl : Xlen) (v : Word) : narrow xl v = v ↔ v.toNat < 2 ^ xl.bits :=
  ⟨fun h => h ▸ narrow_lt xl v, narrow_of_lt⟩

/-- `signed(v)` is the balanced remainder of the value modulo 2^XLEN. -/
theorem signedX_eq (xl : Xlen) (v : Word) : signedX xl v = Int.bmod v.toNat (2 ^ xl.bits) := by
  cases xl with
  | rv32 =>
    simp only [signedX, Xlen.bits, BitVec.toInt_eq_toNat_bmod, BitVec.toNat_setWidth]
    push_cast; exact Int.emod_bmod _ _
  | rv64 => simp only [signedX, Xlen.bits, BitVec.toInt_eq_toNat_bmod]

/-- A sign-extended field is its signed value modulo 2^XLEN (30_encoding.md R113). -/
theorem sextX_toNat (xl : Xlen) {n : Nat} (v : BitVec n) (hn : n ≤ 32) :
    ((sextX xl v).toNat : Int) = v.toInt % (2 ^ xl.bits : Nat) := by
  have h : ((v.signExtend 64).toNat : Int) = v.toInt % (2 ^ 64 : Nat) := by
    rw [← BitVec.toInt_signExtend_of_le (show n ≤ 64 by omega), BitVec.toInt_eq_toNat_bmod, Int.bmod_emod]
    have := (v.signExtend 64).isLt
    omega
  rw [sextX, narrow_toNat]
  push_cast
  rw [h]
  cases xl with
  | rv32 => simp only [Xlen.bits]; omega
  | rv64 => simp only [Xlen.bits]; omega

/-- Bit i of a sign-extended field: bit i, or the sign bit above it. -/
theorem getLsbD_sextX (xl : Xlen) {n : Nat} (v : BitVec n) (i : Nat) (h : i < xl.bits) :
    (sextX xl v).getLsbD i = if i < n then v.getLsbD i else v.msb := by
  have h64 : i < 64 := by cases xl <;> simp only [Xlen.bits] at h <;> omega
  rw [sextX, getLsbD_narrow, BitVec.getLsbD_signExtend]
  simp [h, h64]

theorem getLsbD_setBit (w : Word) (i : Nat) (b : Bool) (j : Nat) (hj : j < 64) :
    (setBit w i b).getLsbD j = if j = i then b else w.getLsbD j := by
  unfold setBit
  by_cases hji : j = i
  · subst hji; cases b <;> simp [hj]
  · cases b <;> simp [hj, hji] <;> omega

theorem getLsbD_bitAt (i : Nat) (b : Bool) (j : Nat) (hj : j < 64) :
    (bitAt i b).getLsbD j = (decide (j = i) && b) := by
  rw [bitAt, getLsbD_setBit _ _ _ _ hj]
  by_cases h : j = i <;> simp [h]

theorem getLsbD_maskedWrite (mask old v : Word) (j : Nat) (hj : j < 64) :
    (maskedWrite mask old v).getLsbD j = if mask.getLsbD j then v.getLsbD j else old.getLsbD j := by
  unfold maskedWrite
  cases h : mask.getLsbD j <;> simp_all

end Sys2Proof.Machine
end

