-- ==== Sys2Proof/Laws/State.lean ====
section
/-! SUPPORT. One lemma per field per update of State, true by rfl, so that no later proof unfolds a record update. -/

namespace Sys2Proof.Machine

/-! ## `State.setX` -/

@[simp] theorem State.setX_xlen (s : State) (r : RegNum) (v : Word) : (s.setX r v).xlen = s.xlen := rfl
@[simp] theorem State.setX_platform (s : State) (r : RegNum) (v : Word) : (s.setX r v).platform = s.platform := rfl
@[simp] theorem State.setX_regs (s : State) (r : RegNum) (v : Word) : (s.setX r v).regs = writeReg s.xlen s.regs r v := rfl
@[simp] theorem State.setX_pc (s : State) (r : RegNum) (v : Word) : (s.setX r v).pc = s.pc := rfl
@[simp] theorem State.setX_priv (s : State) (r : RegNum) (v : Word) : (s.setX r v).priv = s.priv := rfl
@[simp] theorem State.setX_mem (s : State) (r : RegNum) (v : Word) : (s.setX r v).mem = s.mem := rfl
@[simp] theorem State.setX_staleFetch (s : State) (r : RegNum) (v : Word) : (s.setX r v).staleFetch = s.staleFetch := rfl
@[simp] theorem State.setX_wfiWait (s : State) (r : RegNum) (v : Word) : (s.setX r v).wfiWait = s.wfiWait := rfl
@[simp] theorem State.setX_ext (s : State) (r : RegNum) (v : Word) : (s.setX r v).ext = s.ext := rfl
@[simp] theorem State.setX_seipSw (s : State) (r : RegNum) (v : Word) : (s.setX r v).seipSw = s.seipSw := rfl
@[simp] theorem State.setX_ssip (s : State) (r : RegNum) (v : Word) : (s.setX r v).ssip = s.ssip := rfl
@[simp] theorem State.setX_stip (s : State) (r : RegNum) (v : Word) : (s.setX r v).stip = s.stip := rfl
@[simp] theorem State.setX_mstatus (s : State) (r : RegNum) (v : Word) : (s.setX r v).mstatus = s.mstatus := rfl
@[simp] theorem State.setX_medeleg (s : State) (r : RegNum) (v : Word) : (s.setX r v).medeleg = s.medeleg := rfl
@[simp] theorem State.setX_mideleg (s : State) (r : RegNum) (v : Word) : (s.setX r v).mideleg = s.mideleg := rfl
@[simp] theorem State.setX_mie (s : State) (r : RegNum) (v : Word) : (s.setX r v).mie = s.mie := rfl
@[simp] theorem State.setX_mtvec (s : State) (r : RegNum) (v : Word) : (s.setX r v).mtvec = s.mtvec := rfl
@[simp] theorem State.setX_mtvecWritten (s : State) (r : RegNum) (v : Word) : (s.setX r v).mtvecWritten = s.mtvecWritten := rfl
@[simp] theorem State.setX_mcounteren (s : State) (r : RegNum) (v : Word) : (s.setX r v).mcounteren = s.mcounteren := rfl
@[simp] theorem State.setX_mscratch (s : State) (r : RegNum) (v : Word) : (s.setX r v).mscratch = s.mscratch := rfl
@[simp] theorem State.setX_mepc (s : State) (r : RegNum) (v : Word) : (s.setX r v).mepc = s.mepc := rfl
@[simp] theorem State.setX_mcause (s : State) (r : RegNum) (v : Word) : (s.setX r v).mcause = s.mcause := rfl
@[simp] theorem State.setX_mtval (s : State) (r : RegNum) (v : Word) : (s.setX r v).mtval = s.mtval := rfl
@[simp] theorem State.setX_stvec (s : State) (r : RegNum) (v : Word) : (s.setX r v).stvec = s.stvec := rfl
@[simp] theorem State.setX_stvecWritten (s : State) (r : RegNum) (v : Word) : (s.setX r v).stvecWritten = s.stvecWritten := rfl
@[simp] theorem State.setX_scounteren (s : State) (r : RegNum) (v : Word) : (s.setX r v).scounteren = s.scounteren := rfl
@[simp] theorem State.setX_sscratch (s : State) (r : RegNum) (v : Word) : (s.setX r v).sscratch = s.sscratch := rfl
@[simp] theorem State.setX_sepc (s : State) (r : RegNum) (v : Word) : (s.setX r v).sepc = s.sepc := rfl
@[simp] theorem State.setX_scause (s : State) (r : RegNum) (v : Word) : (s.setX r v).scause = s.scause := rfl
@[simp] theorem State.setX_stval (s : State) (r : RegNum) (v : Word) : (s.setX r v).stval = s.stval := rfl
@[simp] theorem State.setX_mcycle (s : State) (r : RegNum) (v : Word) : (s.setX r v).mcycle = s.mcycle := rfl
@[simp] theorem State.setX_minstret (s : State) (r : RegNum) (v : Word) : (s.setX r v).minstret = s.minstret := rfl
@[simp] theorem State.setX_ioHistory (s : State) (r : RegNum) (v : Word) : (s.setX r v).ioHistory = s.ioHistory := rfl
@[simp] theorem State.setX_draw (s : State) (r : RegNum) (v : Word) : (s.setX r v).draw = s.draw := rfl
@[simp] theorem State.setX_script (s : State) (r : RegNum) (v : Word) : (s.setX r v).script = s.script := rfl
@[simp] theorem State.setX_drawIndex (s : State) (r : RegNum) (v : Word) : (s.setX r v).drawIndex = s.drawIndex := rfl
@[simp] theorem State.setX_postponed (s : State) (r : RegNum) (v : Word) : (s.setX r v).postponed = s.postponed := rfl

/-! ## `State.retireTo` -/

@[simp] theorem State.retireTo_xlen (s : State) (t : Word) : (s.retireTo t).xlen = s.xlen := rfl
@[simp] theorem State.retireTo_platform (s : State) (t : Word) : (s.retireTo t).platform = s.platform := rfl
@[simp] theorem State.retireTo_regs (s : State) (t : Word) : (s.retireTo t).regs = s.regs := rfl
@[simp] theorem State.retireTo_pc (s : State) (t : Word) : (s.retireTo t).pc = t := rfl
@[simp] theorem State.retireTo_priv (s : State) (t : Word) : (s.retireTo t).priv = s.priv := rfl
@[simp] theorem State.retireTo_mem (s : State) (t : Word) : (s.retireTo t).mem = s.mem := rfl
@[simp] theorem State.retireTo_staleFetch (s : State) (t : Word) : (s.retireTo t).staleFetch = s.staleFetch := rfl
@[simp] theorem State.retireTo_wfiWait (s : State) (t : Word) : (s.retireTo t).wfiWait = s.wfiWait := rfl
@[simp] theorem State.retireTo_ext (s : State) (t : Word) : (s.retireTo t).ext = s.ext := rfl
@[simp] theorem State.retireTo_seipSw (s : State) (t : Word) : (s.retireTo t).seipSw = s.seipSw := rfl
@[simp] theorem State.retireTo_ssip (s : State) (t : Word) : (s.retireTo t).ssip = s.ssip := rfl
@[simp] theorem State.retireTo_stip (s : State) (t : Word) : (s.retireTo t).stip = s.stip := rfl
@[simp] theorem State.retireTo_mstatus (s : State) (t : Word) : (s.retireTo t).mstatus = s.mstatus := rfl
@[simp] theorem State.retireTo_medeleg (s : State) (t : Word) : (s.retireTo t).medeleg = s.medeleg := rfl
@[simp] theorem State.retireTo_mideleg (s : State) (t : Word) : (s.retireTo t).mideleg = s.mideleg := rfl
@[simp] theorem State.retireTo_mie (s : State) (t : Word) : (s.retireTo t).mie = s.mie := rfl
@[simp] theorem State.retireTo_mtvec (s : State) (t : Word) : (s.retireTo t).mtvec = s.mtvec := rfl
@[simp] theorem State.retireTo_mtvecWritten (s : State) (t : Word) : (s.retireTo t).mtvecWritten = s.mtvecWritten := rfl
@[simp] theorem State.retireTo_mcounteren (s : State) (t : Word) : (s.retireTo t).mcounteren = s.mcounteren := rfl
@[simp] theorem State.retireTo_mscratch (s : State) (t : Word) : (s.retireTo t).mscratch = s.mscratch := rfl
@[simp] theorem State.retireTo_mepc (s : State) (t : Word) : (s.retireTo t).mepc = s.mepc := rfl
@[simp] theorem State.retireTo_mcause (s : State) (t : Word) : (s.retireTo t).mcause = s.mcause := rfl
@[simp] theorem State.retireTo_mtval (s : State) (t : Word) : (s.retireTo t).mtval = s.mtval := rfl
@[simp] theorem State.retireTo_stvec (s : State) (t : Word) : (s.retireTo t).stvec = s.stvec := rfl
@[simp] theorem State.retireTo_stvecWritten (s : State) (t : Word) : (s.retireTo t).stvecWritten = s.stvecWritten := rfl
@[simp] theorem State.retireTo_scounteren (s : State) (t : Word) : (s.retireTo t).scounteren = s.scounteren := rfl
@[simp] theorem State.retireTo_sscratch (s : State) (t : Word) : (s.retireTo t).sscratch = s.sscratch := rfl
@[simp] theorem State.retireTo_sepc (s : State) (t : Word) : (s.retireTo t).sepc = s.sepc := rfl
@[simp] theorem State.retireTo_scause (s : State) (t : Word) : (s.retireTo t).scause = s.scause := rfl
@[simp] theorem State.retireTo_stval (s : State) (t : Word) : (s.retireTo t).stval = s.stval := rfl
@[simp] theorem State.retireTo_mcycle (s : State) (t : Word) : (s.retireTo t).mcycle = s.mcycle := rfl
@[simp] theorem State.retireTo_minstret (s : State) (t : Word) : (s.retireTo t).minstret = s.minstret + 1 := rfl
@[simp] theorem State.retireTo_ioHistory (s : State) (t : Word) : (s.retireTo t).ioHistory = s.ioHistory := rfl
@[simp] theorem State.retireTo_draw (s : State) (t : Word) : (s.retireTo t).draw = s.draw := rfl
@[simp] theorem State.retireTo_script (s : State) (t : Word) : (s.retireTo t).script = s.script := rfl
@[simp] theorem State.retireTo_drawIndex (s : State) (t : Word) : (s.retireTo t).drawIndex = s.drawIndex := rfl
@[simp] theorem State.retireTo_postponed (s : State) (t : Word) : (s.retireTo t).postponed = s.postponed := rfl

/-! ## `State.retire` -/

@[simp] theorem State.retire_xlen (s : State) : (s.retire).xlen = s.xlen := rfl
@[simp] theorem State.retire_platform (s : State) : (s.retire).platform = s.platform := rfl
@[simp] theorem State.retire_regs (s : State) : (s.retire).regs = s.regs := rfl
@[simp] theorem State.retire_pc (s : State) : (s.retire).pc = s.nextPc := rfl
@[simp] theorem State.retire_priv (s : State) : (s.retire).priv = s.priv := rfl
@[simp] theorem State.retire_mem (s : State) : (s.retire).mem = s.mem := rfl
@[simp] theorem State.retire_staleFetch (s : State) : (s.retire).staleFetch = s.staleFetch := rfl
@[simp] theorem State.retire_wfiWait (s : State) : (s.retire).wfiWait = s.wfiWait := rfl
@[simp] theorem State.retire_ext (s : State) : (s.retire).ext = s.ext := rfl
@[simp] theorem State.retire_seipSw (s : State) : (s.retire).seipSw = s.seipSw := rfl
@[simp] theorem State.retire_ssip (s : State) : (s.retire).ssip = s.ssip := rfl
@[simp] theorem State.retire_stip (s : State) : (s.retire).stip = s.stip := rfl
@[simp] theorem State.retire_mstatus (s : State) : (s.retire).mstatus = s.mstatus := rfl
@[simp] theorem State.retire_medeleg (s : State) : (s.retire).medeleg = s.medeleg := rfl
@[simp] theorem State.retire_mideleg (s : State) : (s.retire).mideleg = s.mideleg := rfl
@[simp] theorem State.retire_mie (s : State) : (s.retire).mie = s.mie := rfl
@[simp] theorem State.retire_mtvec (s : State) : (s.retire).mtvec = s.mtvec := rfl
@[simp] theorem State.retire_mtvecWritten (s : State) : (s.retire).mtvecWritten = s.mtvecWritten := rfl
@[simp] theorem State.retire_mcounteren (s : State) : (s.retire).mcounteren = s.mcounteren := rfl
@[simp] theorem State.retire_mscratch (s : State) : (s.retire).mscratch = s.mscratch := rfl
@[simp] theorem State.retire_mepc (s : State) : (s.retire).mepc = s.mepc := rfl
@[simp] theorem State.retire_mcause (s : State) : (s.retire).mcause = s.mcause := rfl
@[simp] theorem State.retire_mtval (s : State) : (s.retire).mtval = s.mtval := rfl
@[simp] theorem State.retire_stvec (s : State) : (s.retire).stvec = s.stvec := rfl
@[simp] theorem State.retire_stvecWritten (s : State) : (s.retire).stvecWritten = s.stvecWritten := rfl
@[simp] theorem State.retire_scounteren (s : State) : (s.retire).scounteren = s.scounteren := rfl
@[simp] theorem State.retire_sscratch (s : State) : (s.retire).sscratch = s.sscratch := rfl
@[simp] theorem State.retire_sepc (s : State) : (s.retire).sepc = s.sepc := rfl
@[simp] theorem State.retire_scause (s : State) : (s.retire).scause = s.scause := rfl
@[simp] theorem State.retire_stval (s : State) : (s.retire).stval = s.stval := rfl
@[simp] theorem State.retire_mcycle (s : State) : (s.retire).mcycle = s.mcycle := rfl
@[simp] theorem State.retire_minstret (s : State) : (s.retire).minstret = s.minstret + 1 := rfl
@[simp] theorem State.retire_ioHistory (s : State) : (s.retire).ioHistory = s.ioHistory := rfl
@[simp] theorem State.retire_draw (s : State) : (s.retire).draw = s.draw := rfl
@[simp] theorem State.retire_script (s : State) : (s.retire).script = s.script := rfl
@[simp] theorem State.retire_drawIndex (s : State) : (s.retire).drawIndex = s.drawIndex := rfl
@[simp] theorem State.retire_postponed (s : State) : (s.retire).postponed = s.postponed := rfl

/-! ## `State.retireUncounted` -/

@[simp] theorem State.retireUncounted_xlen (s : State) : (s.retireUncounted).xlen = s.xlen := rfl
@[simp] theorem State.retireUncounted_platform (s : State) : (s.retireUncounted).platform = s.platform := rfl
@[simp] theorem State.retireUncounted_regs (s : State) : (s.retireUncounted).regs = s.regs := rfl
@[simp] theorem State.retireUncounted_pc (s : State) : (s.retireUncounted).pc = s.nextPc := rfl
@[simp] theorem State.retireUncounted_priv (s : State) : (s.retireUncounted).priv = s.priv := rfl
@[simp] theorem State.retireUncounted_mem (s : State) : (s.retireUncounted).mem = s.mem := rfl
@[simp] theorem State.retireUncounted_staleFetch (s : State) : (s.retireUncounted).staleFetch = s.staleFetch := rfl
@[simp] theorem State.retireUncounted_wfiWait (s : State) : (s.retireUncounted).wfiWait = s.wfiWait := rfl
@[simp] theorem State.retireUncounted_ext (s : State) : (s.retireUncounted).ext = s.ext := rfl
@[simp] theorem State.retireUncounted_seipSw (s : State) : (s.retireUncounted).seipSw = s.seipSw := rfl
@[simp] theorem State.retireUncounted_ssip (s : State) : (s.retireUncounted).ssip = s.ssip := rfl
@[simp] theorem State.retireUncounted_stip (s : State) : (s.retireUncounted).stip = s.stip := rfl
@[simp] theorem State.retireUncounted_mstatus (s : State) : (s.retireUncounted).mstatus = s.mstatus := rfl
@[simp] theorem State.retireUncounted_medeleg (s : State) : (s.retireUncounted).medeleg = s.medeleg := rfl
@[simp] theorem State.retireUncounted_mideleg (s : State) : (s.retireUncounted).mideleg = s.mideleg := rfl
@[simp] theorem State.retireUncounted_mie (s : State) : (s.retireUncounted).mie = s.mie := rfl
@[simp] theorem State.retireUncounted_mtvec (s : State) : (s.retireUncounted).mtvec = s.mtvec := rfl
@[simp] theorem State.retireUncounted_mtvecWritten (s : State) : (s.retireUncounted).mtvecWritten = s.mtvecWritten := rfl
@[simp] theorem State.retireUncounted_mcounteren (s : State) : (s.retireUncounted).mcounteren = s.mcounteren := rfl
@[simp] theorem State.retireUncounted_mscratch (s : State) : (s.retireUncounted).mscratch = s.mscratch := rfl
@[simp] theorem State.retireUncounted_mepc (s : State) : (s.retireUncounted).mepc = s.mepc := rfl
@[simp] theorem State.retireUncounted_mcause (s : State) : (s.retireUncounted).mcause = s.mcause := rfl
@[simp] theorem State.retireUncounted_mtval (s : State) : (s.retireUncounted).mtval = s.mtval := rfl
@[simp] theorem State.retireUncounted_stvec (s : State) : (s.retireUncounted).stvec = s.stvec := rfl
@[simp] theorem State.retireUncounted_stvecWritten (s : State) : (s.retireUncounted).stvecWritten = s.stvecWritten := rfl
@[simp] theorem State.retireUncounted_scounteren (s : State) : (s.retireUncounted).scounteren = s.scounteren := rfl
@[simp] theorem State.retireUncounted_sscratch (s : State) : (s.retireUncounted).sscratch = s.sscratch := rfl
@[simp] theorem State.retireUncounted_sepc (s : State) : (s.retireUncounted).sepc = s.sepc := rfl
@[simp] theorem State.retireUncounted_scause (s : State) : (s.retireUncounted).scause = s.scause := rfl
@[simp] theorem State.retireUncounted_stval (s : State) : (s.retireUncounted).stval = s.stval := rfl
@[simp] theorem State.retireUncounted_mcycle (s : State) : (s.retireUncounted).mcycle = s.mcycle := rfl
@[simp] theorem State.retireUncounted_minstret (s : State) : (s.retireUncounted).minstret = s.minstret := rfl
@[simp] theorem State.retireUncounted_ioHistory (s : State) : (s.retireUncounted).ioHistory = s.ioHistory := rfl
@[simp] theorem State.retireUncounted_draw (s : State) : (s.retireUncounted).draw = s.draw := rfl
@[simp] theorem State.retireUncounted_script (s : State) : (s.retireUncounted).script = s.script := rfl
@[simp] theorem State.retireUncounted_drawIndex (s : State) : (s.retireUncounted).drawIndex = s.drawIndex := rfl
@[simp] theorem State.retireUncounted_postponed (s : State) : (s.retireUncounted).postponed = s.postponed := rfl

/-! ## `State.enterM` -/

@[simp] theorem State.enterM_xlen (s : State) (b : Bool) (c : Nat) (v : Word) : (s.enterM b c v).xlen = s.xlen := rfl
@[simp] theorem State.enterM_platform (s : State) (b : Bool) (c : Nat) (v : Word) : (s.enterM b c v).platform = s.platform := rfl
@[simp] theorem State.enterM_regs (s : State) (b : Bool) (c : Nat) (v : Word) : (s.enterM b c v).regs = s.regs := rfl
@[simp] theorem State.enterM_pc (s : State) (b : Bool) (c : Nat) (v : Word) : (s.enterM b c v).pc = trapVector s.xlen s.mtvec b c := rfl
@[simp] theorem State.enterM_priv (s : State) (b : Bool) (c : Nat) (v : Word) : (s.enterM b c v).priv = .m := rfl
@[simp] theorem State.enterM_mem (s : State) (b : Bool) (c : Nat) (v : Word) : (s.enterM b c v).mem = s.mem := rfl
@[simp] theorem State.enterM_staleFetch (s : State) (b : Bool) (c : Nat) (v : Word) : (s.enterM b c v).staleFetch = s.staleFetch := rfl
@[simp] theorem State.enterM_wfiWait (s : State) (b : Bool) (c : Nat) (v : Word) : (s.enterM b c v).wfiWait = false := rfl
@[simp] theorem State.enterM_ext (s : State) (b : Bool) (c : Nat) (v : Word) : (s.enterM b c v).ext = s.ext := rfl
@[simp] theorem State.enterM_seipSw (s : State) (b : Bool) (c : Nat) (v : Word) : (s.enterM b c v).seipSw = s.seipSw := rfl
@[simp] theorem State.enterM_ssip (s : State) (b : Bool) (c : Nat) (v : Word) : (s.enterM b c v).ssip = s.ssip := rfl
@[simp] theorem State.enterM_stip (s : State) (b : Bool) (c : Nat) (v : Word) : (s.enterM b c v).stip = s.stip := rfl
@[simp] theorem State.enterM_mstatus (s : State) (b : Bool) (c : Nat) (v : Word) : (s.enterM b c v).mstatus = mstatusEnterM s.mstatus s.priv := rfl
@[simp] theorem State.enterM_medeleg (s : State) (b : Bool) (c : Nat) (v : Word) : (s.enterM b c v).medeleg = s.medeleg := rfl
@[simp] theorem State.enterM_mideleg (s : State) (b : Bool) (c : Nat) (v : Word) : (s.enterM b c v).mideleg = s.mideleg := rfl
@[simp] theorem State.enterM_mie (s : State) (b : Bool) (c : Nat) (v : Word) : (s.enterM b c v).mie = s.mie := rfl
@[simp] theorem State.enterM_mtvec (s : State) (b : Bool) (c : Nat) (v : Word) : (s.enterM b c v).mtvec = s.mtvec := rfl
@[simp] theorem State.enterM_mtvecWritten (s : State) (b : Bool) (c : Nat) (v : Word) : (s.enterM b c v).mtvecWritten = s.mtvecWritten := rfl
@[simp] theorem State.enterM_mcounteren (s : State) (b : Bool) (c : Nat) (v : Word) : (s.enterM b c v).mcounteren = s.mcounteren := rfl
@[simp] theorem State.enterM_mscratch (s : State) (b : Bool) (c : Nat) (v : Word) : (s.enterM b c v).mscratch = s.mscratch := rfl
@[simp] theorem State.enterM_mepc (s : State) (b : Bool) (c : Nat) (v : Word) : (s.enterM b c v).mepc = s.pc := rfl
@[simp] theorem State.enterM_mcause (s : State) (b : Bool) (c : Nat) (v : Word) : (s.enterM b c v).mcause = causeWord s.xlen b c := rfl
@[simp] theorem State.enterM_mtval (s : State) (b : Bool) (c : Nat) (v : Word) : (s.enterM b c v).mtval = v := rfl
@[simp] theorem State.enterM_stvec (s : State) (b : Bool) (c : Nat) (v : Word) : (s.enterM b c v).stvec = s.stvec := rfl
@[simp] theorem State.enterM_stvecWritten (s : State) (b : Bool) (c : Nat) (v : Word) : (s.enterM b c v).stvecWritten = s.stvecWritten := rfl
@[simp] theorem State.enterM_scounteren (s : State) (b : Bool) (c : Nat) (v : Word) : (s.enterM b c v).scounteren = s.scounteren := rfl
@[simp] theorem State.enterM_sscratch (s : State) (b : Bool) (c : Nat) (v : Word) : (s.enterM b c v).sscratch = s.sscratch := rfl
@[simp] theorem State.enterM_sepc (s : State) (b : Bool) (c : Nat) (v : Word) : (s.enterM b c v).sepc = s.sepc := rfl
@[simp] theorem State.enterM_scause (s : State) (b : Bool) (c : Nat) (v : Word) : (s.enterM b c v).scause = s.scause := rfl
@[simp] theorem State.enterM_stval (s : State) (b : Bool) (c : Nat) (v : Word) : (s.enterM b c v).stval = s.stval := rfl
@[simp] theorem State.enterM_mcycle (s : State) (b : Bool) (c : Nat) (v : Word) : (s.enterM b c v).mcycle = s.mcycle := rfl
@[simp] theorem State.enterM_minstret (s : State) (b : Bool) (c : Nat) (v : Word) : (s.enterM b c v).minstret = s.minstret := rfl
@[simp] theorem State.enterM_ioHistory (s : State) (b : Bool) (c : Nat) (v : Word) : (s.enterM b c v).ioHistory = s.ioHistory := rfl
@[simp] theorem State.enterM_draw (s : State) (b : Bool) (c : Nat) (v : Word) : (s.enterM b c v).draw = s.draw := rfl
@[simp] theorem State.enterM_script (s : State) (b : Bool) (c : Nat) (v : Word) : (s.enterM b c v).script = s.script := rfl
@[simp] theorem State.enterM_drawIndex (s : State) (b : Bool) (c : Nat) (v : Word) : (s.enterM b c v).drawIndex = s.drawIndex := rfl
@[simp] theorem State.enterM_postponed (s : State) (b : Bool) (c : Nat) (v : Word) : (s.enterM b c v).postponed = s.postponed := rfl

/-! ## `State.enterS` -/

@[simp] theorem State.enterS_xlen (s : State) (b : Bool) (c : Nat) (v : Word) : (s.enterS b c v).xlen = s.xlen := rfl
@[simp] theorem State.enterS_platform (s : State) (b : Bool) (c : Nat) (v : Word) : (s.enterS b c v).platform = s.platform := rfl
@[simp] theorem State.enterS_regs (s : State) (b : Bool) (c : Nat) (v : Word) : (s.enterS b c v).regs = s.regs := rfl
@[simp] theorem State.enterS_pc (s : State) (b : Bool) (c : Nat) (v : Word) : (s.enterS b c v).pc = trapVector s.xlen s.stvec b c := rfl
@[simp] theorem State.enterS_priv (s : State) (b : Bool) (c : Nat) (v : Word) : (s.enterS b c v).priv = .s := rfl
@[simp] theorem State.enterS_mem (s : State) (b : Bool) (c : Nat) (v : Word) : (s.enterS b c v).mem = s.mem := rfl
@[simp] theorem State.enterS_staleFetch (s : State) (b : Bool) (c : Nat) (v : Word) : (s.enterS b c v).staleFetch = s.staleFetch := rfl
@[simp] theorem State.enterS_wfiWait (s : State) (b : Bool) (c : Nat) (v : Word) : (s.enterS b c v).wfiWait = false := rfl
@[simp] theorem State.enterS_ext (s : State) (b : Bool) (c : Nat) (v : Word) : (s.enterS b c v).ext = s.ext := rfl
@[simp] theorem State.enterS_seipSw (s : State) (b : Bool) (c : Nat) (v : Word) : (s.enterS b c v).seipSw = s.seipSw := rfl
@[simp] theorem State.enterS_ssip (s : State) (b : Bool) (c : Nat) (v : Word) : (s.enterS b c v).ssip = s.ssip := rfl
@[simp] theorem State.enterS_stip (s : State) (b : Bool) (c : Nat) (v : Word) : (s.enterS b c v).stip = s.stip := rfl
@[simp] theorem State.enterS_mstatus (s : State) (b : Bool) (c : Nat) (v : Word) : (s.enterS b c v).mstatus = mstatusEnterS s.mstatus s.priv := rfl
@[simp] theorem State.enterS_medeleg (s : State) (b : Bool) (c : Nat) (v : Word) : (s.enterS b c v).medeleg = s.medeleg := rfl
@[simp] theorem State.enterS_mideleg (s : State) (b : Bool) (c : Nat) (v : Word) : (s.enterS b c v).mideleg = s.mideleg := rfl
@[simp] theorem State.enterS_mie (s : State) (b : Bool) (c : Nat) (v : Word) : (s.enterS b c v).mie = s.mie := rfl
@[simp] theorem State.enterS_mtvec (s : State) (b : Bool) (c : Nat) (v : Word) : (s.enterS b c v).mtvec = s.mtvec := rfl
@[simp] theorem State.enterS_mtvecWritten (s : State) (b : Bool) (c : Nat) (v : Word) : (s.enterS b c v).mtvecWritten = s.mtvecWritten := rfl
@[simp] theorem State.enterS_mcounteren (s : State) (b : Bool) (c : Nat) (v : Word) : (s.enterS b c v).mcounteren = s.mcounteren := rfl
@[simp] theorem State.enterS_mscratch (s : State) (b : Bool) (c : Nat) (v : Word) : (s.enterS b c v).mscratch = s.mscratch := rfl
@[simp] theorem State.enterS_mepc (s : State) (b : Bool) (c : Nat) (v : Word) : (s.enterS b c v).mepc = s.mepc := rfl
@[simp] theorem State.enterS_mcause (s : State) (b : Bool) (c : Nat) (v : Word) : (s.enterS b c v).mcause = s.mcause := rfl
@[simp] theorem State.enterS_mtval (s : State) (b : Bool) (c : Nat) (v : Word) : (s.enterS b c v).mtval = s.mtval := rfl
@[simp] theorem State.enterS_stvec (s : State) (b : Bool) (c : Nat) (v : Word) : (s.enterS b c v).stvec = s.stvec := rfl
@[simp] theorem State.enterS_stvecWritten (s : State) (b : Bool) (c : Nat) (v : Word) : (s.enterS b c v).stvecWritten = s.stvecWritten := rfl
@[simp] theorem State.enterS_scounteren (s : State) (b : Bool) (c : Nat) (v : Word) : (s.enterS b c v).scounteren = s.scounteren := rfl
@[simp] theorem State.enterS_sscratch (s : State) (b : Bool) (c : Nat) (v : Word) : (s.enterS b c v).sscratch = s.sscratch := rfl
@[simp] theorem State.enterS_sepc (s : State) (b : Bool) (c : Nat) (v : Word) : (s.enterS b c v).sepc = s.pc := rfl
@[simp] theorem State.enterS_scause (s : State) (b : Bool) (c : Nat) (v : Word) : (s.enterS b c v).scause = causeWord s.xlen b c := rfl
@[simp] theorem State.enterS_stval (s : State) (b : Bool) (c : Nat) (v : Word) : (s.enterS b c v).stval = v := rfl
@[simp] theorem State.enterS_mcycle (s : State) (b : Bool) (c : Nat) (v : Word) : (s.enterS b c v).mcycle = s.mcycle := rfl
@[simp] theorem State.enterS_minstret (s : State) (b : Bool) (c : Nat) (v : Word) : (s.enterS b c v).minstret = s.minstret := rfl
@[simp] theorem State.enterS_ioHistory (s : State) (b : Bool) (c : Nat) (v : Word) : (s.enterS b c v).ioHistory = s.ioHistory := rfl
@[simp] theorem State.enterS_draw (s : State) (b : Bool) (c : Nat) (v : Word) : (s.enterS b c v).draw = s.draw := rfl
@[simp] theorem State.enterS_script (s : State) (b : Bool) (c : Nat) (v : Word) : (s.enterS b c v).script = s.script := rfl
@[simp] theorem State.enterS_drawIndex (s : State) (b : Bool) (c : Nat) (v : Word) : (s.enterS b c v).drawIndex = s.drawIndex := rfl
@[simp] theorem State.enterS_postponed (s : State) (b : Bool) (c : Nat) (v : Word) : (s.enterS b c v).postponed = s.postponed := rfl

/-! ## `State.returnM` -/

@[simp] theorem State.returnM_xlen (s : State) : (s.returnM).xlen = s.xlen := rfl
@[simp] theorem State.returnM_platform (s : State) : (s.returnM).platform = s.platform := rfl
@[simp] theorem State.returnM_regs (s : State) : (s.returnM).regs = s.regs := rfl
@[simp] theorem State.returnM_pc (s : State) : (s.returnM).pc = s.mepc := rfl
@[simp] theorem State.returnM_priv (s : State) : (s.returnM).priv = mppPriv s.mstatus := rfl
@[simp] theorem State.returnM_mem (s : State) : (s.returnM).mem = s.mem := rfl
@[simp] theorem State.returnM_staleFetch (s : State) : (s.returnM).staleFetch = s.staleFetch := rfl
@[simp] theorem State.returnM_wfiWait (s : State) : (s.returnM).wfiWait = s.wfiWait := rfl
@[simp] theorem State.returnM_ext (s : State) : (s.returnM).ext = s.ext := rfl
@[simp] theorem State.returnM_seipSw (s : State) : (s.returnM).seipSw = s.seipSw := rfl
@[simp] theorem State.returnM_ssip (s : State) : (s.returnM).ssip = s.ssip := rfl
@[simp] theorem State.returnM_stip (s : State) : (s.returnM).stip = s.stip := rfl
@[simp] theorem State.returnM_mstatus (s : State) : (s.returnM).mstatus = mstatusMret s.mstatus := rfl
@[simp] theorem State.returnM_medeleg (s : State) : (s.returnM).medeleg = s.medeleg := rfl
@[simp] theorem State.returnM_mideleg (s : State) : (s.returnM).mideleg = s.mideleg := rfl
@[simp] theorem State.returnM_mie (s : State) : (s.returnM).mie = s.mie := rfl
@[simp] theorem State.returnM_mtvec (s : State) : (s.returnM).mtvec = s.mtvec := rfl
@[simp] theorem State.returnM_mtvecWritten (s : State) : (s.returnM).mtvecWritten = s.mtvecWritten := rfl
@[simp] theorem State.returnM_mcounteren (s : State) : (s.returnM).mcounteren = s.mcounteren := rfl
@[simp] theorem State.returnM_mscratch (s : State) : (s.returnM).mscratch = s.mscratch := rfl
@[simp] theorem State.returnM_mepc (s : State) : (s.returnM).mepc = s.mepc := rfl
@[simp] theorem State.returnM_mcause (s : State) : (s.returnM).mcause = s.mcause := rfl
@[simp] theorem State.returnM_mtval (s : State) : (s.returnM).mtval = s.mtval := rfl
@[simp] theorem State.returnM_stvec (s : State) : (s.returnM).stvec = s.stvec := rfl
@[simp] theorem State.returnM_stvecWritten (s : State) : (s.returnM).stvecWritten = s.stvecWritten := rfl
@[simp] theorem State.returnM_scounteren (s : State) : (s.returnM).scounteren = s.scounteren := rfl
@[simp] theorem State.returnM_sscratch (s : State) : (s.returnM).sscratch = s.sscratch := rfl
@[simp] theorem State.returnM_sepc (s : State) : (s.returnM).sepc = s.sepc := rfl
@[simp] theorem State.returnM_scause (s : State) : (s.returnM).scause = s.scause := rfl
@[simp] theorem State.returnM_stval (s : State) : (s.returnM).stval = s.stval := rfl
@[simp] theorem State.returnM_mcycle (s : State) : (s.returnM).mcycle = s.mcycle := rfl
@[simp] theorem State.returnM_minstret (s : State) : (s.returnM).minstret = s.minstret + 1 := rfl
@[simp] theorem State.returnM_ioHistory (s : State) : (s.returnM).ioHistory = s.ioHistory := rfl
@[simp] theorem State.returnM_draw (s : State) : (s.returnM).draw = s.draw := rfl
@[simp] theorem State.returnM_script (s : State) : (s.returnM).script = s.script := rfl
@[simp] theorem State.returnM_drawIndex (s : State) : (s.returnM).drawIndex = s.drawIndex := rfl
@[simp] theorem State.returnM_postponed (s : State) : (s.returnM).postponed = s.postponed := rfl

/-! ## `State.returnS` -/

@[simp] theorem State.returnS_xlen (s : State) : (s.returnS).xlen = s.xlen := rfl
@[simp] theorem State.returnS_platform (s : State) : (s.returnS).platform = s.platform := rfl
@[simp] theorem State.returnS_regs (s : State) : (s.returnS).regs = s.regs := rfl
@[simp] theorem State.returnS_pc (s : State) : (s.returnS).pc = s.sepc := rfl
@[simp] theorem State.returnS_priv (s : State) : (s.returnS).priv = sppPriv s.mstatus := rfl
@[simp] theorem State.returnS_mem (s : State) : (s.returnS).mem = s.mem := rfl
@[simp] theorem State.returnS_staleFetch (s : State) : (s.returnS).staleFetch = s.staleFetch := rfl
@[simp] theorem State.returnS_wfiWait (s : State) : (s.returnS).wfiWait = s.wfiWait := rfl
@[simp] theorem State.returnS_ext (s : State) : (s.returnS).ext = s.ext := rfl
@[simp] theorem State.returnS_seipSw (s : State) : (s.returnS).seipSw = s.seipSw := rfl
@[simp] theorem State.returnS_ssip (s : State) : (s.returnS).ssip = s.ssip := rfl
@[simp] theorem State.returnS_stip (s : State) : (s.returnS).stip = s.stip := rfl
@[simp] theorem State.returnS_mstatus (s : State) : (s.returnS).mstatus = mstatusSret s.mstatus := rfl
@[simp] theorem State.returnS_medeleg (s : State) : (s.returnS).medeleg = s.medeleg := rfl
@[simp] theorem State.returnS_mideleg (s : State) : (s.returnS).mideleg = s.mideleg := rfl
@[simp] theorem State.returnS_mie (s : State) : (s.returnS).mie = s.mie := rfl
@[simp] theorem State.returnS_mtvec (s : State) : (s.returnS).mtvec = s.mtvec := rfl
@[simp] theorem State.returnS_mtvecWritten (s : State) : (s.returnS).mtvecWritten = s.mtvecWritten := rfl
@[simp] theorem State.returnS_mcounteren (s : State) : (s.returnS).mcounteren = s.mcounteren := rfl
@[simp] theorem State.returnS_mscratch (s : State) : (s.returnS).mscratch = s.mscratch := rfl
@[simp] theorem State.returnS_mepc (s : State) : (s.returnS).mepc = s.mepc := rfl
@[simp] theorem State.returnS_mcause (s : State) : (s.returnS).mcause = s.mcause := rfl
@[simp] theorem State.returnS_mtval (s : State) : (s.returnS).mtval = s.mtval := rfl
@[simp] theorem State.returnS_stvec (s : State) : (s.returnS).stvec = s.stvec := rfl
@[simp] theorem State.returnS_stvecWritten (s : State) : (s.returnS).stvecWritten = s.stvecWritten := rfl
@[simp] theorem State.returnS_scounteren (s : State) : (s.returnS).scounteren = s.scounteren := rfl
@[simp] theorem State.returnS_sscratch (s : State) : (s.returnS).sscratch = s.sscratch := rfl
@[simp] theorem State.returnS_sepc (s : State) : (s.returnS).sepc = s.sepc := rfl
@[simp] theorem State.returnS_scause (s : State) : (s.returnS).scause = s.scause := rfl
@[simp] theorem State.returnS_stval (s : State) : (s.returnS).stval = s.stval := rfl
@[simp] theorem State.returnS_mcycle (s : State) : (s.returnS).mcycle = s.mcycle := rfl
@[simp] theorem State.returnS_minstret (s : State) : (s.returnS).minstret = s.minstret + 1 := rfl
@[simp] theorem State.returnS_ioHistory (s : State) : (s.returnS).ioHistory = s.ioHistory := rfl
@[simp] theorem State.returnS_draw (s : State) : (s.returnS).draw = s.draw := rfl
@[simp] theorem State.returnS_script (s : State) : (s.returnS).script = s.script := rfl
@[simp] theorem State.returnS_drawIndex (s : State) : (s.returnS).drawIndex = s.drawIndex := rfl
@[simp] theorem State.returnS_postponed (s : State) : (s.returnS).postponed = s.postponed := rfl

/-! ## `State.sampleWith` -/

@[simp] theorem State.sampleWith_xlen (s : State) (d : Draw) : (s.sampleWith d).xlen = s.xlen := rfl
@[simp] theorem State.sampleWith_platform (s : State) (d : Draw) : (s.sampleWith d).platform = s.platform := rfl
@[simp] theorem State.sampleWith_regs (s : State) (d : Draw) : (s.sampleWith d).regs = s.regs := rfl
@[simp] theorem State.sampleWith_pc (s : State) (d : Draw) : (s.sampleWith d).pc = s.pc := rfl
@[simp] theorem State.sampleWith_priv (s : State) (d : Draw) : (s.sampleWith d).priv = s.priv := rfl
@[simp] theorem State.sampleWith_mem (s : State) (d : Draw) : (s.sampleWith d).mem = s.mem := rfl
@[simp] theorem State.sampleWith_staleFetch (s : State) (d : Draw) : (s.sampleWith d).staleFetch = s.staleFetch := rfl
@[simp] theorem State.sampleWith_wfiWait (s : State) (d : Draw) : (s.sampleWith d).wfiWait = s.wfiWait := rfl
@[simp] theorem State.sampleWith_ext (s : State) (d : Draw) : (s.sampleWith d).ext = sampledExt s.ext d := rfl
@[simp] theorem State.sampleWith_seipSw (s : State) (d : Draw) : (s.sampleWith d).seipSw = s.seipSw := rfl
@[simp] theorem State.sampleWith_ssip (s : State) (d : Draw) : (s.sampleWith d).ssip = s.ssip := rfl
@[simp] theorem State.sampleWith_stip (s : State) (d : Draw) : (s.sampleWith d).stip = s.stip := rfl
@[simp] theorem State.sampleWith_mstatus (s : State) (d : Draw) : (s.sampleWith d).mstatus = s.mstatus := rfl
@[simp] theorem State.sampleWith_medeleg (s : State) (d : Draw) : (s.sampleWith d).medeleg = s.medeleg := rfl
@[simp] theorem State.sampleWith_mideleg (s : State) (d : Draw) : (s.sampleWith d).mideleg = s.mideleg := rfl
@[simp] theorem State.sampleWith_mie (s : State) (d : Draw) : (s.sampleWith d).mie = s.mie := rfl
@[simp] theorem State.sampleWith_mtvec (s : State) (d : Draw) : (s.sampleWith d).mtvec = s.mtvec := rfl
@[simp] theorem State.sampleWith_mtvecWritten (s : State) (d : Draw) : (s.sampleWith d).mtvecWritten = s.mtvecWritten := rfl
@[simp] theorem State.sampleWith_mcounteren (s : State) (d : Draw) : (s.sampleWith d).mcounteren = s.mcounteren := rfl
@[simp] theorem State.sampleWith_mscratch (s : State) (d : Draw) : (s.sampleWith d).mscratch = s.mscratch := rfl
@[simp] theorem State.sampleWith_mepc (s : State) (d : Draw) : (s.sampleWith d).mepc = s.mepc := rfl
@[simp] theorem State.sampleWith_mcause (s : State) (d : Draw) : (s.sampleWith d).mcause = s.mcause := rfl
@[simp] theorem State.sampleWith_mtval (s : State) (d : Draw) : (s.sampleWith d).mtval = s.mtval := rfl
@[simp] theorem State.sampleWith_stvec (s : State) (d : Draw) : (s.sampleWith d).stvec = s.stvec := rfl
@[simp] theorem State.sampleWith_stvecWritten (s : State) (d : Draw) : (s.sampleWith d).stvecWritten = s.stvecWritten := rfl
@[simp] theorem State.sampleWith_scounteren (s : State) (d : Draw) : (s.sampleWith d).scounteren = s.scounteren := rfl
@[simp] theorem State.sampleWith_sscratch (s : State) (d : Draw) : (s.sampleWith d).sscratch = s.sscratch := rfl
@[simp] theorem State.sampleWith_sepc (s : State) (d : Draw) : (s.sampleWith d).sepc = s.sepc := rfl
@[simp] theorem State.sampleWith_scause (s : State) (d : Draw) : (s.sampleWith d).scause = s.scause := rfl
@[simp] theorem State.sampleWith_stval (s : State) (d : Draw) : (s.sampleWith d).stval = s.stval := rfl
@[simp] theorem State.sampleWith_mcycle (s : State) (d : Draw) : (s.sampleWith d).mcycle = s.mcycle + BitVec.ofNat 64 (d.extraCycles + 1) := rfl
@[simp] theorem State.sampleWith_minstret (s : State) (d : Draw) : (s.sampleWith d).minstret = s.minstret := rfl
@[simp] theorem State.sampleWith_ioHistory (s : State) (d : Draw) : (s.sampleWith d).ioHistory = s.ioHistory := rfl
@[simp] theorem State.sampleWith_draw (s : State) (d : Draw) : (s.sampleWith d).draw = d := rfl
@[simp] theorem State.sampleWith_script (s : State) (d : Draw) : (s.sampleWith d).script = s.script.tail := rfl
@[simp] theorem State.sampleWith_drawIndex (s : State) (d : Draw) : (s.sampleWith d).drawIndex = s.drawIndex + 1 := rfl
@[simp] theorem State.sampleWith_postponed (s : State) (d : Draw) : (s.sampleWith d).postponed = s.postponed := rfl

/-! ## `State.holdOff` -/

@[simp] theorem State.holdOff_xlen (s : State) : (s.holdOff).xlen = s.xlen := rfl
@[simp] theorem State.holdOff_platform (s : State) : (s.holdOff).platform = s.platform := rfl
@[simp] theorem State.holdOff_regs (s : State) : (s.holdOff).regs = s.regs := rfl
@[simp] theorem State.holdOff_pc (s : State) : (s.holdOff).pc = s.pc := rfl
@[simp] theorem State.holdOff_priv (s : State) : (s.holdOff).priv = s.priv := rfl
@[simp] theorem State.holdOff_mem (s : State) : (s.holdOff).mem = s.mem := rfl
@[simp] theorem State.holdOff_staleFetch (s : State) : (s.holdOff).staleFetch = s.staleFetch := rfl
@[simp] theorem State.holdOff_wfiWait (s : State) : (s.holdOff).wfiWait = s.wfiWait := rfl
@[simp] theorem State.holdOff_ext (s : State) : (s.holdOff).ext = s.ext := rfl
@[simp] theorem State.holdOff_seipSw (s : State) : (s.holdOff).seipSw = s.seipSw := rfl
@[simp] theorem State.holdOff_ssip (s : State) : (s.holdOff).ssip = s.ssip := rfl
@[simp] theorem State.holdOff_stip (s : State) : (s.holdOff).stip = s.stip := rfl
@[simp] theorem State.holdOff_mstatus (s : State) : (s.holdOff).mstatus = s.mstatus := rfl
@[simp] theorem State.holdOff_medeleg (s : State) : (s.holdOff).medeleg = s.medeleg := rfl
@[simp] theorem State.holdOff_mideleg (s : State) : (s.holdOff).mideleg = s.mideleg := rfl
@[simp] theorem State.holdOff_mie (s : State) : (s.holdOff).mie = s.mie := rfl
@[simp] theorem State.holdOff_mtvec (s : State) : (s.holdOff).mtvec = s.mtvec := rfl
@[simp] theorem State.holdOff_mtvecWritten (s : State) : (s.holdOff).mtvecWritten = s.mtvecWritten := rfl
@[simp] theorem State.holdOff_mcounteren (s : State) : (s.holdOff).mcounteren = s.mcounteren := rfl
@[simp] theorem State.holdOff_mscratch (s : State) : (s.holdOff).mscratch = s.mscratch := rfl
@[simp] theorem State.holdOff_mepc (s : State) : (s.holdOff).mepc = s.mepc := rfl
@[simp] theorem State.holdOff_mcause (s : State) : (s.holdOff).mcause = s.mcause := rfl
@[simp] theorem State.holdOff_mtval (s : State) : (s.holdOff).mtval = s.mtval := rfl
@[simp] theorem State.holdOff_stvec (s : State) : (s.holdOff).stvec = s.stvec := rfl
@[simp] theorem State.holdOff_stvecWritten (s : State) : (s.holdOff).stvecWritten = s.stvecWritten := rfl
@[simp] theorem State.holdOff_scounteren (s : State) : (s.holdOff).scounteren = s.scounteren := rfl
@[simp] theorem State.holdOff_sscratch (s : State) : (s.holdOff).sscratch = s.sscratch := rfl
@[simp] theorem State.holdOff_sepc (s : State) : (s.holdOff).sepc = s.sepc := rfl
@[simp] theorem State.holdOff_scause (s : State) : (s.holdOff).scause = s.scause := rfl
@[simp] theorem State.holdOff_stval (s : State) : (s.holdOff).stval = s.stval := rfl
@[simp] theorem State.holdOff_mcycle (s : State) : (s.holdOff).mcycle = s.mcycle := rfl
@[simp] theorem State.holdOff_minstret (s : State) : (s.holdOff).minstret = s.minstret := rfl
@[simp] theorem State.holdOff_ioHistory (s : State) : (s.holdOff).ioHistory = s.ioHistory := rfl
@[simp] theorem State.holdOff_draw (s : State) : (s.holdOff).draw = s.draw := rfl
@[simp] theorem State.holdOff_script (s : State) : (s.holdOff).script = s.script := rfl
@[simp] theorem State.holdOff_drawIndex (s : State) : (s.holdOff).drawIndex = s.drawIndex := rfl
@[simp] theorem State.holdOff_postponed (s : State) : (s.holdOff).postponed = delays s (takeableList s) := rfl

/-! ## `State.idle` -/

@[simp] theorem State.idle_xlen (s : State) : (s.idle).xlen = s.xlen := rfl
@[simp] theorem State.idle_platform (s : State) : (s.idle).platform = s.platform := rfl
@[simp] theorem State.idle_regs (s : State) : (s.idle).regs = s.regs := rfl
@[simp] theorem State.idle_pc (s : State) : (s.idle).pc = s.pc := rfl
@[simp] theorem State.idle_priv (s : State) : (s.idle).priv = s.priv := rfl
@[simp] theorem State.idle_mem (s : State) : (s.idle).mem = s.mem := rfl
@[simp] theorem State.idle_staleFetch (s : State) : (s.idle).staleFetch = s.staleFetch := rfl
@[simp] theorem State.idle_wfiWait (s : State) : (s.idle).wfiWait = s.wfiWait := rfl
@[simp] theorem State.idle_ext (s : State) : (s.idle).ext = s.ext := rfl
@[simp] theorem State.idle_seipSw (s : State) : (s.idle).seipSw = s.seipSw := rfl
@[simp] theorem State.idle_ssip (s : State) : (s.idle).ssip = s.ssip := rfl
@[simp] theorem State.idle_stip (s : State) : (s.idle).stip = s.stip := rfl
@[simp] theorem State.idle_mstatus (s : State) : (s.idle).mstatus = s.mstatus := rfl
@[simp] theorem State.idle_medeleg (s : State) : (s.idle).medeleg = s.medeleg := rfl
@[simp] theorem State.idle_mideleg (s : State) : (s.idle).mideleg = s.mideleg := rfl
@[simp] theorem State.idle_mie (s : State) : (s.idle).mie = s.mie := rfl
@[simp] theorem State.idle_mtvec (s : State) : (s.idle).mtvec = s.mtvec := rfl
@[simp] theorem State.idle_mtvecWritten (s : State) : (s.idle).mtvecWritten = s.mtvecWritten := rfl
@[simp] theorem State.idle_mcounteren (s : State) : (s.idle).mcounteren = s.mcounteren := rfl
@[simp] theorem State.idle_mscratch (s : State) : (s.idle).mscratch = s.mscratch := rfl
@[simp] theorem State.idle_mepc (s : State) : (s.idle).mepc = s.mepc := rfl
@[simp] theorem State.idle_mcause (s : State) : (s.idle).mcause = s.mcause := rfl
@[simp] theorem State.idle_mtval (s : State) : (s.idle).mtval = s.mtval := rfl
@[simp] theorem State.idle_stvec (s : State) : (s.idle).stvec = s.stvec := rfl
@[simp] theorem State.idle_stvecWritten (s : State) : (s.idle).stvecWritten = s.stvecWritten := rfl
@[simp] theorem State.idle_scounteren (s : State) : (s.idle).scounteren = s.scounteren := rfl
@[simp] theorem State.idle_sscratch (s : State) : (s.idle).sscratch = s.sscratch := rfl
@[simp] theorem State.idle_sepc (s : State) : (s.idle).sepc = s.sepc := rfl
@[simp] theorem State.idle_scause (s : State) : (s.idle).scause = s.scause := rfl
@[simp] theorem State.idle_stval (s : State) : (s.idle).stval = s.stval := rfl
@[simp] theorem State.idle_mcycle (s : State) : (s.idle).mcycle = s.mcycle := rfl
@[simp] theorem State.idle_minstret (s : State) : (s.idle).minstret = s.minstret := rfl
@[simp] theorem State.idle_ioHistory (s : State) : (s.idle).ioHistory = s.ioHistory := rfl
@[simp] theorem State.idle_draw (s : State) : (s.idle).draw = s.draw := rfl
@[simp] theorem State.idle_script (s : State) : (s.idle).script = s.script := rfl
@[simp] theorem State.idle_drawIndex (s : State) : (s.idle).drawIndex = s.drawIndex := rfl
@[simp] theorem State.idle_postponed (s : State) : (s.idle).postponed = [] := rfl

end Sys2Proof.Machine
end

