-- ==== Sys2Proof/Laws/Registers.lean ====
section
/-! SUPPORT. The laws of the register file: x0, read after write, and the width of what is read. -/

namespace Sys2Proof.Machine

@[simp] theorem State.x_zero (s : State) : s.x 0#5 = 0 := by simp [State.x]

/-- Every register reads as a value of XLEN bits. -/
theorem State.x_lt (s : State) (r : RegNum) : (s.x r).toNat < 2 ^ s.xlen.bits := by
  unfold State.x
  split
  · exact Nat.two_pow_pos _
  · exact narrow_lt _ _

@[simp] theorem State.narrow_x (s : State) (r : RegNum) : narrow s.platform.xlen (s.x r) = s.x r :=
  narrow_of_lt (s.x_lt r)

/-- A register reads alike in two states with one register file and one platform. -/
theorem State.x_congr {s t : State} (hr : t.regs = s.regs) (hp : t.platform = s.platform) (r : RegNum) :
    t.x r = s.x r := by
  unfold State.x State.xlen; rw [hr, hp]

/-- Read after write: the written register reads the XLEN-bit value, x0 and the others read as before. -/
theorem State.x_setX (s : State) (r q : RegNum) (v : Word) :
    (s.setX r v).x q = if q = r ∧ r ≠ 0#5 then narrow s.xlen v else s.x q := by
  by_cases hr : r = 0#5
  · subst hr
    rw [if_neg (by simp)]
    exact State.x_congr (by simp [writeReg]) rfl q
  · by_cases hq : q = r
    · subst hq
      simp [State.x, hr, writeReg, Vector.get_eq_getElem]
    · have hne : r.toNat ≠ q.toNat := fun h => hq (BitVec.eq_of_toNat_eq h.symm)
      rw [if_neg (by simp [hq])]
      unfold State.x
      simp only [State.setX_xlen, State.setX_regs, writeReg, if_neg hr]
      congr 2
      simp only [Vector.get_eq_getElem]
      exact Vector.getElem_set_ne _ _ hne

@[simp] theorem State.x_setX_self (s : State) (r : RegNum) (v : Word) (h : r ≠ 0#5) :
    (s.setX r v).x r = narrow s.xlen v := by rw [State.x_setX, if_pos ⟨rfl, h⟩]

theorem State.x_setX_other (s : State) {r q : RegNum} (v : Word) (h : q ≠ r) : (s.setX r v).x q = s.x q := by
  rw [State.x_setX, if_neg fun hc => h hc.1]

@[simp] theorem State.x_retireTo (s : State) (t : Word) (r : RegNum) : (s.retireTo t).x r = s.x r := rfl

@[simp] theorem State.x_retire (s : State) (r : RegNum) : s.retire.x r = s.x r := rfl

@[simp] theorem State.x_retireUncounted (s : State) (r : RegNum) : s.retireUncounted.x r = s.x r := rfl

/-- `pc + 4` as a number (00_scope.md R11). -/
theorem State.nextPc_toNat (s : State) : s.nextPc.toNat = (s.pc.toNat + 4) % 2 ^ s.xlen.bits := by
  rw [State.nextPc, narrow_toNat, BitVec.toNat_add]
  cases s.xlen <;> simp [Xlen.bits]

end Sys2Proof.Machine
end

