-- ==== Sys2Proof/Laws/Trap.lean ====
section
/-! SUPPORT. What taking a trap and returning from one change, and everything the shared shapes of the instructions can
answer. -/

namespace Sys2Proof.Machine

/-! ## Bits of `mstatus` -/

theorem getLsbD_mstatusEnterM (w : Word) (p : Priv) (k : Nat) (hk : k < 64) :
    (mstatusEnterM w p).getLsbD k =
      if k = 12 then p == .m else if k = 11 then p != .u else if k = 3 then false
        else if k = 7 then w.getLsbD 3 else w.getLsbD k := by
  simp only [mstatusEnterM, setMpp, getLsbD_setBit _ _ _ _ hk, bitMIE, bitMPIE]

theorem getLsbD_mstatusEnterS (w : Word) (p : Priv) (k : Nat) (hk : k < 64) :
    (mstatusEnterS w p).getLsbD k =
      if k = 8 then p == .s else if k = 1 then false else if k = 5 then w.getLsbD 1 else w.getLsbD k := by
  simp only [mstatusEnterS, getLsbD_setBit _ _ _ _ hk, bitSIE, bitSPIE, bitSPP]

theorem getLsbD_mstatusMret (w : Word) (k : Nat) (hk : k < 64) :
    (mstatusMret w).getLsbD k =
      if k = 12 then false else if k = 11 then false else if k = 7 then true
        else if k = 3 then w.getLsbD 7 else w.getLsbD k := by
  simp only [mstatusMret, setMpp, getLsbD_setBit _ _ _ _ hk, bitMIE, bitMPIE]
  rfl

theorem getLsbD_mstatusSret (w : Word) (k : Nat) (hk : k < 64) :
    (mstatusSret w).getLsbD k =
      if k = 8 then false else if k = 5 then true else if k = 1 then w.getLsbD 5 else w.getLsbD k := by
  simp only [mstatusSret, getLsbD_setBit _ _ _ _ hk, bitSIE, bitSPIE, bitSPP]

/-- Clearing bits [1:0] rounds down to a multiple of 4. -/
theorem clearLow2_toNat (v : Word) : (clearLow2 v).toNat = v.toNat - v.toNat % 4 := by
  have h : clearLow2 v = (v >>> 2) <<< 2 := by
    apply BitVec.eq_of_getLsbD_eq; intro k hk
    simp only [clearLow2, getLsbD_setBit _ _ _ _ hk, BitVec.getLsbD_shiftLeft, BitVec.getLsbD_ushiftRight]
    rcases k with _ | _ | k
    · simp
    · simp
    · simp [show k + 1 + 1 < 64 from hk, Nat.add_comm 2]
  rw [h, BitVec.toNat_shiftLeft, BitVec.toNat_ushiftRight, Nat.shiftRight_eq_div_pow, Nat.shiftLeft_eq]
  have := v.isLt
  omega

/-- The low two bits of a value as a remainder. -/
theorem low2_toNat (v : Word) : (v.extractLsb' 0 2).toNat = v.toNat % 4 := by
  simp [BitVec.extractLsb'_toNat]

/-- The cause word as a number (R322). -/
theorem causeWord_toNat (xl : Xlen) (b : Bool) (c : Nat) (hc : c < 32) :
    (causeWord xl b c).toNat = (if b then 2 ^ (xl.bits - 1) else 0) + c := by
  cases xl <;> cases b <;> interval_cases c <;> rfl

/-- The vector as a number (R324). -/
theorem trapVector_toNat (xl : Xlen) (tvec : Word) (b : Bool) (c : Nat) :
    (trapVector xl tvec b c).toNat =
      if tvec.toNat % 4 = 1 ∧ b = true then (tvec.toNat - tvec.toNat % 4 + 4 * c) % 2 ^ xl.bits
      else tvec.toNat - tvec.toNat % 4 := by
  have hlow : tvec.extractLsb' 0 2 = 1#2 ↔ tvec.toNat % 4 = 1 := by
    rw [← low2_toNat]
    constructor
    · intro h; rw [h]; rfl
    · intro h; exact BitVec.eq_of_toNat_eq (by rw [h]; rfl)
  unfold trapVector
  simp only [hlow]
  split
  · rw [narrow_toNat, BitVec.toNat_add, clearLow2_toNat, BitVec.toNat_mul, BitVec.toNat_ofNat]
    cases xl <;> simp [Xlen.bits]
  · exact clearLow2_toNat tvec

theorem Exc.code_lt (e : Exc) : e.code < 32 := by cases e <;> decide

theorem Interrupt.code_lt (i : Interrupt) : i.code < 32 := by cases i <;> decide

/-! ## Taking a trap -/

/-- An exception is an entry to S-mode if it is delegated, else one to M-mode (R321). -/
theorem State.takeException_cases (s : State) (e : Exc) (v : Word) :
    (s.delegates e = true ∧ s.takeException e v = s.enterS false e.code v) ∨
      (s.delegates e = false ∧ s.takeException e v = s.enterM false e.code v) := by
  unfold State.takeException
  cases s.delegates e <;> simp

/-- Raising an exception takes it if the vector of its mode was written, and is refused if not (R362). -/
theorem raise_cases (e : Exc) (v : Word) (s : State) :
    (s.vectorWritten e = true ∧ raise e v s = .next (s.takeException e v)) ∨
      (s.vectorWritten e = false ∧ raise e v s = .refused .vectorUnwritten) := by
  unfold raise
  cases s.vectorWritten e <;> simp

/-- If raising an exception answers a next state, that is the state after taking it. -/
theorem raise_next {e : Exc} {v : Word} {s t : State} (h : raise e v s = .next t) : t = s.takeException e v := by
  rcases raise_cases e v s with ⟨-, h'⟩ | ⟨-, h'⟩ <;> rw [h'] at h <;> cases h
  rfl

/-- An interrupt is an entry to S-mode if it is delegated, else one to M-mode (R321). -/
theorem State.takeInterrupt_cases (s : State) (i : Interrupt) :
    (s.mideleg.getLsbD i.code = true ∧ s.takeInterrupt i = s.enterS true i.code 0) ∨
      (s.mideleg.getLsbD i.code = false ∧ s.takeInterrupt i = s.enterM true i.code 0) := by
  unfold State.takeInterrupt
  cases s.mideleg.getLsbD i.code <;> simp

/-! What trap entry does not change (R320): these fields, whichever mode it goes to. -/

@[simp] theorem State.takeException_platform (s : State) (e : Exc) (v : Word) :
    (s.takeException e v).platform = s.platform := by unfold State.takeException; split <;> rfl
@[simp] theorem State.takeException_regs (s : State) (e : Exc) (v : Word) :
    (s.takeException e v).regs = s.regs := by unfold State.takeException; split <;> rfl
@[simp] theorem State.takeException_mem (s : State) (e : Exc) (v : Word) :
    (s.takeException e v).mem = s.mem := by unfold State.takeException; split <;> rfl
@[simp] theorem State.takeException_staleFetch (s : State) (e : Exc) (v : Word) :
    (s.takeException e v).staleFetch = s.staleFetch := by unfold State.takeException; split <;> rfl
@[simp] theorem State.takeException_ext (s : State) (e : Exc) (v : Word) :
    (s.takeException e v).ext = s.ext := by unfold State.takeException; split <;> rfl
@[simp] theorem State.takeException_seipSw (s : State) (e : Exc) (v : Word) :
    (s.takeException e v).seipSw = s.seipSw := by unfold State.takeException; split <;> rfl
@[simp] theorem State.takeException_ssip (s : State) (e : Exc) (v : Word) :
    (s.takeException e v).ssip = s.ssip := by unfold State.takeException; split <;> rfl
@[simp] theorem State.takeException_stip (s : State) (e : Exc) (v : Word) :
    (s.takeException e v).stip = s.stip := by unfold State.takeException; split <;> rfl
@[simp] theorem State.takeException_medeleg (s : State) (e : Exc) (v : Word) :
    (s.takeException e v).medeleg = s.medeleg := by unfold State.takeException; split <;> rfl
@[simp] theorem State.takeException_mideleg (s : State) (e : Exc) (v : Word) :
    (s.takeException e v).mideleg = s.mideleg := by unfold State.takeException; split <;> rfl
@[simp] theorem State.takeException_mie (s : State) (e : Exc) (v : Word) :
    (s.takeException e v).mie = s.mie := by unfold State.takeException; split <;> rfl
@[simp] theorem State.takeException_mtvec (s : State) (e : Exc) (v : Word) :
    (s.takeException e v).mtvec = s.mtvec := by unfold State.takeException; split <;> rfl
@[simp] theorem State.takeException_mtvecWritten (s : State) (e : Exc) (v : Word) :
    (s.takeException e v).mtvecWritten = s.mtvecWritten := by unfold State.takeException; split <;> rfl
@[simp] theorem State.takeException_mcounteren (s : State) (e : Exc) (v : Word) :
    (s.takeException e v).mcounteren = s.mcounteren := by unfold State.takeException; split <;> rfl
@[simp] theorem State.takeException_mscratch (s : State) (e : Exc) (v : Word) :
    (s.takeException e v).mscratch = s.mscratch := by unfold State.takeException; split <;> rfl
@[simp] theorem State.takeException_stvec (s : State) (e : Exc) (v : Word) :
    (s.takeException e v).stvec = s.stvec := by unfold State.takeException; split <;> rfl
@[simp] theorem State.takeException_stvecWritten (s : State) (e : Exc) (v : Word) :
    (s.takeException e v).stvecWritten = s.stvecWritten := by unfold State.takeException; split <;> rfl
@[simp] theorem State.takeException_scounteren (s : State) (e : Exc) (v : Word) :
    (s.takeException e v).scounteren = s.scounteren := by unfold State.takeException; split <;> rfl
@[simp] theorem State.takeException_sscratch (s : State) (e : Exc) (v : Word) :
    (s.takeException e v).sscratch = s.sscratch := by unfold State.takeException; split <;> rfl
@[simp] theorem State.takeException_mcycle (s : State) (e : Exc) (v : Word) :
    (s.takeException e v).mcycle = s.mcycle := by unfold State.takeException; split <;> rfl
@[simp] theorem State.takeException_minstret (s : State) (e : Exc) (v : Word) :
    (s.takeException e v).minstret = s.minstret := by unfold State.takeException; split <;> rfl
@[simp] theorem State.takeException_ioHistory (s : State) (e : Exc) (v : Word) :
    (s.takeException e v).ioHistory = s.ioHistory := by unfold State.takeException; split <;> rfl
@[simp] theorem State.takeException_draw (s : State) (e : Exc) (v : Word) :
    (s.takeException e v).draw = s.draw := by unfold State.takeException; split <;> rfl
@[simp] theorem State.takeException_script (s : State) (e : Exc) (v : Word) :
    (s.takeException e v).script = s.script := by unfold State.takeException; split <;> rfl
@[simp] theorem State.takeException_drawIndex (s : State) (e : Exc) (v : Word) :
    (s.takeException e v).drawIndex = s.drawIndex := by unfold State.takeException; split <;> rfl
@[simp] theorem State.takeException_postponed (s : State) (e : Exc) (v : Word) :
    (s.takeException e v).postponed = s.postponed := by unfold State.takeException; split <;> rfl
@[simp] theorem State.takeException_wfiWait (s : State) (e : Exc) (v : Word) :
    (s.takeException e v).wfiWait = false := by unfold State.takeException; split <;> rfl

@[simp] theorem State.takeInterrupt_platform (s : State) (i : Interrupt) :
    (s.takeInterrupt i).platform = s.platform := by unfold State.takeInterrupt; split <;> rfl
@[simp] theorem State.takeInterrupt_regs (s : State) (i : Interrupt) :
    (s.takeInterrupt i).regs = s.regs := by unfold State.takeInterrupt; split <;> rfl
@[simp] theorem State.takeInterrupt_mem (s : State) (i : Interrupt) :
    (s.takeInterrupt i).mem = s.mem := by unfold State.takeInterrupt; split <;> rfl
@[simp] theorem State.takeInterrupt_staleFetch (s : State) (i : Interrupt) :
    (s.takeInterrupt i).staleFetch = s.staleFetch := by unfold State.takeInterrupt; split <;> rfl
@[simp] theorem State.takeInterrupt_ext (s : State) (i : Interrupt) :
    (s.takeInterrupt i).ext = s.ext := by unfold State.takeInterrupt; split <;> rfl
@[simp] theorem State.takeInterrupt_seipSw (s : State) (i : Interrupt) :
    (s.takeInterrupt i).seipSw = s.seipSw := by unfold State.takeInterrupt; split <;> rfl
@[simp] theorem State.takeInterrupt_ssip (s : State) (i : Interrupt) :
    (s.takeInterrupt i).ssip = s.ssip := by unfold State.takeInterrupt; split <;> rfl
@[simp] theorem State.takeInterrupt_stip (s : State) (i : Interrupt) :
    (s.takeInterrupt i).stip = s.stip := by unfold State.takeInterrupt; split <;> rfl
@[simp] theorem State.takeInterrupt_medeleg (s : State) (i : Interrupt) :
    (s.takeInterrupt i).medeleg = s.medeleg := by unfold State.takeInterrupt; split <;> rfl
@[simp] theorem State.takeInterrupt_mideleg (s : State) (i : Interrupt) :
    (s.takeInterrupt i).mideleg = s.mideleg := by unfold State.takeInterrupt; split <;> rfl
@[simp] theorem State.takeInterrupt_mie (s : State) (i : Interrupt) :
    (s.takeInterrupt i).mie = s.mie := by unfold State.takeInterrupt; split <;> rfl
@[simp] theorem State.takeInterrupt_mtvec (s : State) (i : Interrupt) :
    (s.takeInterrupt i).mtvec = s.mtvec := by unfold State.takeInterrupt; split <;> rfl
@[simp] theorem State.takeInterrupt_mtvecWritten (s : State) (i : Interrupt) :
    (s.takeInterrupt i).mtvecWritten = s.mtvecWritten := by unfold State.takeInterrupt; split <;> rfl
@[simp] theorem State.takeInterrupt_mcounteren (s : State) (i : Interrupt) :
    (s.takeInterrupt i).mcounteren = s.mcounteren := by unfold State.takeInterrupt; split <;> rfl
@[simp] theorem State.takeInterrupt_mscratch (s : State) (i : Interrupt) :
    (s.takeInterrupt i).mscratch = s.mscratch := by unfold State.takeInterrupt; split <;> rfl
@[simp] theorem State.takeInterrupt_stvec (s : State) (i : Interrupt) :
    (s.takeInterrupt i).stvec = s.stvec := by unfold State.takeInterrupt; split <;> rfl
@[simp] theorem State.takeInterrupt_stvecWritten (s : State) (i : Interrupt) :
    (s.takeInterrupt i).stvecWritten = s.stvecWritten := by unfold State.takeInterrupt; split <;> rfl
@[simp] theorem State.takeInterrupt_scounteren (s : State) (i : Interrupt) :
    (s.takeInterrupt i).scounteren = s.scounteren := by unfold State.takeInterrupt; split <;> rfl
@[simp] theorem State.takeInterrupt_sscratch (s : State) (i : Interrupt) :
    (s.takeInterrupt i).sscratch = s.sscratch := by unfold State.takeInterrupt; split <;> rfl
@[simp] theorem State.takeInterrupt_mcycle (s : State) (i : Interrupt) :
    (s.takeInterrupt i).mcycle = s.mcycle := by unfold State.takeInterrupt; split <;> rfl
@[simp] theorem State.takeInterrupt_minstret (s : State) (i : Interrupt) :
    (s.takeInterrupt i).minstret = s.minstret := by unfold State.takeInterrupt; split <;> rfl
@[simp] theorem State.takeInterrupt_ioHistory (s : State) (i : Interrupt) :
    (s.takeInterrupt i).ioHistory = s.ioHistory := by unfold State.takeInterrupt; split <;> rfl
@[simp] theorem State.takeInterrupt_draw (s : State) (i : Interrupt) :
    (s.takeInterrupt i).draw = s.draw := by unfold State.takeInterrupt; split <;> rfl
@[simp] theorem State.takeInterrupt_script (s : State) (i : Interrupt) :
    (s.takeInterrupt i).script = s.script := by unfold State.takeInterrupt; split <;> rfl
@[simp] theorem State.takeInterrupt_drawIndex (s : State) (i : Interrupt) :
    (s.takeInterrupt i).drawIndex = s.drawIndex := by unfold State.takeInterrupt; split <;> rfl
@[simp] theorem State.takeInterrupt_postponed (s : State) (i : Interrupt) :
    (s.takeInterrupt i).postponed = s.postponed := by unfold State.takeInterrupt; split <;> rfl
@[simp] theorem State.takeInterrupt_wfiWait (s : State) (i : Interrupt) :
    (s.takeInterrupt i).wfiWait = false := by unfold State.takeInterrupt; split <;> rfl

@[simp] theorem State.takeException_x (s : State) (e : Exc) (v : Word) (r : RegNum) :
    (s.takeException e v).x r = s.x r := State.x_congr (by simp) (by simp) r

@[simp] theorem State.takeInterrupt_x (s : State) (i : Interrupt) (r : RegNum) :
    (s.takeInterrupt i).x r = s.x r := State.x_congr (by simp) (by simp) r

/-- A trap never lowers the privilege mode, unless a delegated interrupt is taken in M-mode, which is never takeable
(R321, R332). -/
theorem State.takeException_level (s : State) (e : Exc) (v : Word) :
    s.priv.level ≤ (s.takeException e v).priv.level := by
  rcases s.takeException_cases e v with ⟨hd, h⟩ | ⟨-, h⟩
  · rw [h]
    simp only [State.delegates, Bool.and_eq_true, bne_iff_ne] at hd
    cases hp : s.priv <;> simp_all [Priv.level]
  · rw [h]; cases s.priv <;> simp [Priv.level]

/-! ## The shared shapes of the instructions -/

/-- What `onlyRV64` answers on each XLEN. -/
theorem onlyRV64_cases (i : Instr) (b : Result) (s : State) :
    (s.xlen = .rv64 ∧ onlyRV64 i b s = b) ∨ (s.xlen = .rv32 ∧ onlyRV64 i b s = raiseIllegal (encode i) s) := by
  unfold onlyRV64
  cases s.xlen <;> simp

/-- Everything a transfer can answer (43_branches_jumps.md R180). -/
theorem transfer_cases (link : Option RegNum) (t : Word) (s : State) :
    (t.toNat % 4 ≠ 0 ∧ transfer link t s = raise .instrAddrMisaligned t s) ∨
      (t.toNat % 4 = 0 ∧ link = none ∧ transfer link t s = .next (s.retireTo t)) ∨
      (t.toNat % 4 = 0 ∧ ∃ rd, link = some rd ∧ transfer link t s = .next ((s.setX rd s.nextPc).retireTo t)) := by
  have hlow : t.extractLsb' 0 2 = 0#2 ↔ t.toNat % 4 = 0 := by
    rw [← low2_toNat]
    constructor
    · intro h; rw [h]; rfl
    · intro h; exact BitVec.eq_of_toNat_eq (by rw [h]; rfl)
  unfold transfer
  by_cases h : t.toNat % 4 = 0
  · rw [if_neg (by simp [hlow, h])]
    cases link with
    | none => exact .inr (.inl ⟨h, rfl, rfl⟩)
    | some rd => exact .inr (.inr ⟨h, rd, rfl, rfl⟩)
  · exact .inl ⟨h, by rw [if_pos (by simp [hlow, h])]⟩

/-- Everything a load can answer (46_loads_stores.md R210). -/
theorem load_cases (n : Nat) (ext : Word → Word) (rd rs1 : RegNum) (imm : BitVec 12) (s : State) :
    (∃ e, memRead s (effectiveAddress s rs1 imm) n = .error e ∧
        load n ext rd rs1 imm s = raise e (effectiveAddress s rs1 imm) s) ∨
      ∃ v t, memRead s (effectiveAddress s rs1 imm) n = .ok (v, t) ∧
        load n ext rd rs1 imm s = .next (t.setX rd (ext v)).retire := by
  unfold load
  cases h : memRead s (effectiveAddress s rs1 imm) n with
  | error e => exact .inl ⟨e, rfl, rfl⟩
  | ok p => obtain ⟨v, t⟩ := p; exact .inr ⟨v, t, rfl, rfl⟩

/-- Everything a store can answer (46_loads_stores.md R210). -/
theorem store_cases (n : Nat) (rs1 rs2 : RegNum) (imm : BitVec 12) (s : State) :
    (∃ e, memWrite s (effectiveAddress s rs1 imm) n (s.x rs2) = .error e ∧
        store n rs1 rs2 imm s = raise e (effectiveAddress s rs1 imm) s) ∨
      ∃ t, memWrite s (effectiveAddress s rs1 imm) n (s.x rs2) = .ok t ∧
        store n rs1 rs2 imm s = .next t.retire := by
  unfold store
  cases h : memWrite s (effectiveAddress s rs1 imm) n (s.x rs2) with
  | error e => exact .inl ⟨e, rfl, rfl⟩
  | ok t => exact .inr ⟨t, rfl, rfl⟩

end Sys2Proof.Machine
end

