-- ==== Sys2Proof/Laws/Csr.lean ====
section
/-! SUPPORT. Everything a CSR instruction can answer, what a write to a CSR leaves alone, and the widths of what is
read. -/

namespace Sys2Proof.Machine

/-- Every CSR reads as a value of XLEN bits (R28). -/
theorem csrRead_lt (c : Csr) (s : State) : (csrRead c s).toNat < 2 ^ s.xlen.bits := narrow_lt _ _

@[simp] theorem narrow_csrRead (c : Csr) (s : State) : narrow s.platform.xlen (csrRead c s) = csrRead c s :=
  narrow_narrow _ _

/-- Which register a `CsrCheck` lets through, and when (45_csr.md R200). -/
theorem csrCheck_some {s : State} {a : BitVec 12} {w : Bool} {c : Csr} :
    csrCheck s a w = some c ↔ csrAllowed s a w = true ∧ csrAt s.xlen a = some c := by
  unfold csrCheck
  cases csrAllowed s a w <;> simp

/-- Everything a CSR instruction can answer (R200-R206): illegal, refused, or the old value in `rd` and the register
written. -/
theorem csrOp_cases (inst : Instr) (rd : RegNum) (a : BitVec 12) (w : Bool) (f : Word → Word) (s : State) :
    (csrCheck s a w = none ∧ csrOp inst rd a w f s = raiseIllegal (encode inst) s) ∨
      ∃ c, csrCheck s a w = some c ∧
        ((w = false ∧ csrOp inst rd a w f s = .next (csrRetire c w (s.setX rd (csrRead c s)))) ∨
          (w = true ∧ ∃ r, csrWrite c (f (csrModifyBase c s)) s = .error r ∧ csrOp inst rd a w f s = .refused r) ∨
          (w = true ∧ ∃ u, csrWrite c (f (csrModifyBase c s)) s = .ok u ∧
            csrOp inst rd a w f s = .next (csrRetire c w (u.setX rd (csrRead c s))))) := by
  unfold csrOp
  cases hc : csrCheck s a w with
  | none => exact .inl ⟨rfl, rfl⟩
  | some c =>
    refine .inr ⟨c, rfl, ?_⟩
    cases w with
    | false => exact .inl ⟨rfl, rfl⟩
    | true =>
      cases hw : csrWrite c (f (csrModifyBase c s)) s with
      | error r => exact .inr (.inl ⟨rfl, r, rfl, by simp [hw]⟩)
      | ok u => exact .inr (.inr ⟨rfl, u, rfl, by simp [hw]⟩)

/-- The one write that is refused: a non-zero value to `satp` (10_state.md R46). -/
theorem csrWrite_error {c : Csr} {v : Word} {s : State} {r : Refusal} (h : csrWrite c v s = .error r) :
    c = .satp ∧ narrow s.xlen v ≠ 0 ∧ r = .satpNonZero := by
  cases c <;> simp only [csrWrite] at h
  case satp =>
    split at h
    · cases h
    · next hz => cases h; exact ⟨rfl, hz, rfl⟩
  all_goals cases h

/-- Every other write goes on. -/
theorem csrWrite_ok {c : Csr} {v : Word} {s : State} (h : c = .satp → narrow s.xlen v = 0) :
    ∃ u, csrWrite c v s = .ok u := by
  cases hw : csrWrite c v s with
  | ok u => exact ⟨u, rfl⟩
  | error r => obtain ⟨rfl, hz, -⟩ := csrWrite_error hw; exact absurd (h rfl) hz

/-! What no CSR write changes. -/

theorem csrWrite_platform {c : Csr} {v : Word} {s u : State} (h : csrWrite c v s = .ok u) : u.platform = s.platform := by
  cases c <;> simp only [csrWrite] at h
  case satp => split at h <;> cases h; rfl
  all_goals cases h; rfl

/-- The vectors written since reset are those written before and the one this write goes to (R362). -/
theorem csrWrite_mtvecWritten {c : Csr} {v : Word} {s u : State} (h : csrWrite c v s = .ok u) :
    u.mtvecWritten = (s.mtvecWritten || decide (c = .mtvec)) := by
  cases c <;> simp only [csrWrite] at h
  case satp => split at h <;> cases h; simp
  all_goals cases h; simp

theorem csrWrite_stvecWritten {c : Csr} {v : Word} {s u : State} (h : csrWrite c v s = .ok u) :
    u.stvecWritten = (s.stvecWritten || decide (c = .stvec)) := by
  cases c <;> simp only [csrWrite] at h
  case satp => split at h <;> cases h; simp
  all_goals cases h; simp

theorem csrWrite_regs {c : Csr} {v : Word} {s u : State} (h : csrWrite c v s = .ok u) : u.regs = s.regs := by
  cases c <;> simp only [csrWrite] at h
  case satp => split at h <;> cases h; rfl
  all_goals cases h; rfl

theorem csrWrite_pc {c : Csr} {v : Word} {s u : State} (h : csrWrite c v s = .ok u) : u.pc = s.pc := by
  cases c <;> simp only [csrWrite] at h
  case satp => split at h <;> cases h; rfl
  all_goals cases h; rfl

theorem csrWrite_priv {c : Csr} {v : Word} {s u : State} (h : csrWrite c v s = .ok u) : u.priv = s.priv := by
  cases c <;> simp only [csrWrite] at h
  case satp => split at h <;> cases h; rfl
  all_goals cases h; rfl

theorem csrWrite_mem {c : Csr} {v : Word} {s u : State} (h : csrWrite c v s = .ok u) : u.mem = s.mem := by
  cases c <;> simp only [csrWrite] at h
  case satp => split at h <;> cases h; rfl
  all_goals cases h; rfl

theorem csrWrite_staleFetch {c : Csr} {v : Word} {s u : State} (h : csrWrite c v s = .ok u) : u.staleFetch = s.staleFetch := by
  cases c <;> simp only [csrWrite] at h
  case satp => split at h <;> cases h; rfl
  all_goals cases h; rfl

theorem csrWrite_wfiWait {c : Csr} {v : Word} {s u : State} (h : csrWrite c v s = .ok u) : u.wfiWait = s.wfiWait := by
  cases c <;> simp only [csrWrite] at h
  case satp => split at h <;> cases h; rfl
  all_goals cases h; rfl

theorem csrWrite_ext {c : Csr} {v : Word} {s u : State} (h : csrWrite c v s = .ok u) : u.ext = s.ext := by
  cases c <;> simp only [csrWrite] at h
  case satp => split at h <;> cases h; rfl
  all_goals cases h; rfl

theorem csrWrite_ioHistory {c : Csr} {v : Word} {s u : State} (h : csrWrite c v s = .ok u) : u.ioHistory = s.ioHistory := by
  cases c <;> simp only [csrWrite] at h
  case satp => split at h <;> cases h; rfl
  all_goals cases h; rfl

theorem csrWrite_draw {c : Csr} {v : Word} {s u : State} (h : csrWrite c v s = .ok u) : u.draw = s.draw := by
  cases c <;> simp only [csrWrite] at h
  case satp => split at h <;> cases h; rfl
  all_goals cases h; rfl

theorem csrWrite_script {c : Csr} {v : Word} {s u : State} (h : csrWrite c v s = .ok u) : u.script = s.script := by
  cases c <;> simp only [csrWrite] at h
  case satp => split at h <;> cases h; rfl
  all_goals cases h; rfl

theorem csrWrite_drawIndex {c : Csr} {v : Word} {s u : State} (h : csrWrite c v s = .ok u) : u.drawIndex = s.drawIndex := by
  cases c <;> simp only [csrWrite] at h
  case satp => split at h <;> cases h; rfl
  all_goals cases h; rfl

theorem csrWrite_postponed {c : Csr} {v : Word} {s u : State} (h : csrWrite c v s = .ok u) : u.postponed = s.postponed := by
  cases c <;> simp only [csrWrite] at h
  case satp => split at h <;> cases h; rfl
  all_goals cases h; rfl

/-! What the end of a CSR instruction changes: `pc` and `minstret`. -/

@[simp] theorem csrRetire_xlen (c : Csr) (w : Bool) (s : State) : (csrRetire c w s).xlen = s.xlen := by
  unfold csrRetire; split <;> rfl
@[simp] theorem csrRetire_platform (c : Csr) (w : Bool) (s : State) : (csrRetire c w s).platform = s.platform := by
  unfold csrRetire; split <;> rfl
@[simp] theorem csrRetire_regs (c : Csr) (w : Bool) (s : State) : (csrRetire c w s).regs = s.regs := by
  unfold csrRetire; split <;> rfl
@[simp] theorem csrRetire_priv (c : Csr) (w : Bool) (s : State) : (csrRetire c w s).priv = s.priv := by
  unfold csrRetire; split <;> rfl
@[simp] theorem csrRetire_mem (c : Csr) (w : Bool) (s : State) : (csrRetire c w s).mem = s.mem := by
  unfold csrRetire; split <;> rfl
@[simp] theorem csrRetire_staleFetch (c : Csr) (w : Bool) (s : State) : (csrRetire c w s).staleFetch = s.staleFetch := by
  unfold csrRetire; split <;> rfl
@[simp] theorem csrRetire_wfiWait (c : Csr) (w : Bool) (s : State) : (csrRetire c w s).wfiWait = s.wfiWait := by
  unfold csrRetire; split <;> rfl
@[simp] theorem csrRetire_ext (c : Csr) (w : Bool) (s : State) : (csrRetire c w s).ext = s.ext := by
  unfold csrRetire; split <;> rfl
@[simp] theorem csrRetire_seipSw (c : Csr) (w : Bool) (s : State) : (csrRetire c w s).seipSw = s.seipSw := by
  unfold csrRetire; split <;> rfl
@[simp] theorem csrRetire_ssip (c : Csr) (w : Bool) (s : State) : (csrRetire c w s).ssip = s.ssip := by
  unfold csrRetire; split <;> rfl
@[simp] theorem csrRetire_stip (c : Csr) (w : Bool) (s : State) : (csrRetire c w s).stip = s.stip := by
  unfold csrRetire; split <;> rfl
@[simp] theorem csrRetire_mstatus (c : Csr) (w : Bool) (s : State) : (csrRetire c w s).mstatus = s.mstatus := by
  unfold csrRetire; split <;> rfl
@[simp] theorem csrRetire_medeleg (c : Csr) (w : Bool) (s : State) : (csrRetire c w s).medeleg = s.medeleg := by
  unfold csrRetire; split <;> rfl
@[simp] theorem csrRetire_mideleg (c : Csr) (w : Bool) (s : State) : (csrRetire c w s).mideleg = s.mideleg := by
  unfold csrRetire; split <;> rfl
@[simp] theorem csrRetire_mie (c : Csr) (w : Bool) (s : State) : (csrRetire c w s).mie = s.mie := by
  unfold csrRetire; split <;> rfl
@[simp] theorem csrRetire_mtvec (c : Csr) (w : Bool) (s : State) : (csrRetire c w s).mtvec = s.mtvec := by
  unfold csrRetire; split <;> rfl
@[simp] theorem csrRetire_mtvecWritten (c : Csr) (w : Bool) (s : State) : (csrRetire c w s).mtvecWritten = s.mtvecWritten := by
  unfold csrRetire; split <;> rfl
@[simp] theorem csrRetire_mcounteren (c : Csr) (w : Bool) (s : State) : (csrRetire c w s).mcounteren = s.mcounteren := by
  unfold csrRetire; split <;> rfl
@[simp] theorem csrRetire_mscratch (c : Csr) (w : Bool) (s : State) : (csrRetire c w s).mscratch = s.mscratch := by
  unfold csrRetire; split <;> rfl
@[simp] theorem csrRetire_mepc (c : Csr) (w : Bool) (s : State) : (csrRetire c w s).mepc = s.mepc := by
  unfold csrRetire; split <;> rfl
@[simp] theorem csrRetire_mcause (c : Csr) (w : Bool) (s : State) : (csrRetire c w s).mcause = s.mcause := by
  unfold csrRetire; split <;> rfl
@[simp] theorem csrRetire_mtval (c : Csr) (w : Bool) (s : State) : (csrRetire c w s).mtval = s.mtval := by
  unfold csrRetire; split <;> rfl
@[simp] theorem csrRetire_stvec (c : Csr) (w : Bool) (s : State) : (csrRetire c w s).stvec = s.stvec := by
  unfold csrRetire; split <;> rfl
@[simp] theorem csrRetire_stvecWritten (c : Csr) (w : Bool) (s : State) : (csrRetire c w s).stvecWritten = s.stvecWritten := by
  unfold csrRetire; split <;> rfl
@[simp] theorem csrRetire_scounteren (c : Csr) (w : Bool) (s : State) : (csrRetire c w s).scounteren = s.scounteren := by
  unfold csrRetire; split <;> rfl
@[simp] theorem csrRetire_sscratch (c : Csr) (w : Bool) (s : State) : (csrRetire c w s).sscratch = s.sscratch := by
  unfold csrRetire; split <;> rfl
@[simp] theorem csrRetire_sepc (c : Csr) (w : Bool) (s : State) : (csrRetire c w s).sepc = s.sepc := by
  unfold csrRetire; split <;> rfl
@[simp] theorem csrRetire_scause (c : Csr) (w : Bool) (s : State) : (csrRetire c w s).scause = s.scause := by
  unfold csrRetire; split <;> rfl
@[simp] theorem csrRetire_stval (c : Csr) (w : Bool) (s : State) : (csrRetire c w s).stval = s.stval := by
  unfold csrRetire; split <;> rfl
@[simp] theorem csrRetire_mcycle (c : Csr) (w : Bool) (s : State) : (csrRetire c w s).mcycle = s.mcycle := by
  unfold csrRetire; split <;> rfl
@[simp] theorem csrRetire_ioHistory (c : Csr) (w : Bool) (s : State) : (csrRetire c w s).ioHistory = s.ioHistory := by
  unfold csrRetire; split <;> rfl
@[simp] theorem csrRetire_draw (c : Csr) (w : Bool) (s : State) : (csrRetire c w s).draw = s.draw := by
  unfold csrRetire; split <;> rfl
@[simp] theorem csrRetire_script (c : Csr) (w : Bool) (s : State) : (csrRetire c w s).script = s.script := by
  unfold csrRetire; split <;> rfl
@[simp] theorem csrRetire_drawIndex (c : Csr) (w : Bool) (s : State) : (csrRetire c w s).drawIndex = s.drawIndex := by
  unfold csrRetire; split <;> rfl
@[simp] theorem csrRetire_postponed (c : Csr) (w : Bool) (s : State) : (csrRetire c w s).postponed = s.postponed := by
  unfold csrRetire; split <;> rfl
@[simp] theorem csrRetire_pc (c : Csr) (w : Bool) (s : State) : (csrRetire c w s).pc = s.nextPc := by
  unfold csrRetire; split <;> rfl
theorem csrRetire_minstret (c : Csr) (w : Bool) (s : State) :
    (csrRetire c w s).minstret = if (w && countsItself c) = true then s.minstret else s.minstret + 1 := by
  unfold csrRetire; split <;> rfl

end Sys2Proof.Machine
end

