-- ==== Sys2Proof/Laws/Encoding.lean ====
section
/-! SUPPORT. The formats bit by bit (30_encoding.md R111): each field read back from a word, each format's fixed bits
under its mask, and each word rebuilt from its fields. -/

namespace Sys2Proof

/-! ## Fields of each format -/

@[simp] theorem rdOf_encR (f7 : BitVec 7) (rs2 rs1 : RegNum) (f3 : BitVec 3) (rd : RegNum) (op : BitVec 7) :
    rdOf (encR f7 rs2 rs1 f3 rd op) = rd := by
  apply BitVec.eq_of_getLsbD_eq; intro i hi
  simp only [rdOf, encR, BitVec.getLsbD_extractLsb', BitVec.getLsbD_append]
  interval_cases i <;> simp

@[simp] theorem rs1Of_encR (f7 : BitVec 7) (rs2 rs1 : RegNum) (f3 : BitVec 3) (rd : RegNum) (op : BitVec 7) :
    rs1Of (encR f7 rs2 rs1 f3 rd op) = rs1 := by
  apply BitVec.eq_of_getLsbD_eq; intro i hi
  simp only [rs1Of, encR, BitVec.getLsbD_extractLsb', BitVec.getLsbD_append]
  interval_cases i <;> simp

@[simp] theorem rs2Of_encR (f7 : BitVec 7) (rs2 rs1 : RegNum) (f3 : BitVec 3) (rd : RegNum) (op : BitVec 7) :
    rs2Of (encR f7 rs2 rs1 f3 rd op) = rs2 := by
  apply BitVec.eq_of_getLsbD_eq; intro i hi
  simp only [rs2Of, encR, BitVec.getLsbD_extractLsb', BitVec.getLsbD_append]
  interval_cases i <;> simp

@[simp] theorem rdOf_encI (imm : BitVec 12) (rs1 : RegNum) (f3 : BitVec 3) (rd : RegNum) (op : BitVec 7) :
    rdOf (encI imm rs1 f3 rd op) = rd := by
  apply BitVec.eq_of_getLsbD_eq; intro i hi
  simp only [rdOf, encI, BitVec.getLsbD_extractLsb', BitVec.getLsbD_append]
  interval_cases i <;> simp

@[simp] theorem rs1Of_encI (imm : BitVec 12) (rs1 : RegNum) (f3 : BitVec 3) (rd : RegNum) (op : BitVec 7) :
    rs1Of (encI imm rs1 f3 rd op) = rs1 := by
  apply BitVec.eq_of_getLsbD_eq; intro i hi
  simp only [rs1Of, encI, BitVec.getLsbD_extractLsb', BitVec.getLsbD_append]
  interval_cases i <;> simp

@[simp] theorem rs1Of_encS (imm : BitVec 12) (rs2 rs1 : RegNum) (f3 : BitVec 3) (op : BitVec 7) :
    rs1Of (encS imm rs2 rs1 f3 op) = rs1 := by
  apply BitVec.eq_of_getLsbD_eq; intro i hi
  simp only [rs1Of, encS, BitVec.getLsbD_extractLsb', BitVec.getLsbD_append]
  interval_cases i <;> simp

@[simp] theorem rs2Of_encS (imm : BitVec 12) (rs2 rs1 : RegNum) (f3 : BitVec 3) (op : BitVec 7) :
    rs2Of (encS imm rs2 rs1 f3 op) = rs2 := by
  apply BitVec.eq_of_getLsbD_eq; intro i hi
  simp only [rs2Of, encS, BitVec.getLsbD_extractLsb', BitVec.getLsbD_append]
  interval_cases i <;> simp

@[simp] theorem rs1Of_encB (off : BitVec 13) (rs2 rs1 : RegNum) (f3 : BitVec 3) (op : BitVec 7) :
    rs1Of (encB off rs2 rs1 f3 op) = rs1 := by
  apply BitVec.eq_of_getLsbD_eq; intro i hi
  simp only [rs1Of, encB, BitVec.getLsbD_extractLsb', BitVec.getLsbD_append]
  interval_cases i <;> simp

@[simp] theorem rs2Of_encB (off : BitVec 13) (rs2 rs1 : RegNum) (f3 : BitVec 3) (op : BitVec 7) :
    rs2Of (encB off rs2 rs1 f3 op) = rs2 := by
  apply BitVec.eq_of_getLsbD_eq; intro i hi
  simp only [rs2Of, encB, BitVec.getLsbD_extractLsb', BitVec.getLsbD_append]
  interval_cases i <;> simp

@[simp] theorem rdOf_encU (imm : BitVec 20) (rd : RegNum) (op : BitVec 7) :
    rdOf (encU imm rd op) = rd := by
  apply BitVec.eq_of_getLsbD_eq; intro i hi
  simp only [rdOf, encU, BitVec.getLsbD_extractLsb', BitVec.getLsbD_append]
  interval_cases i <;> simp

@[simp] theorem rdOf_encJ (off : BitVec 21) (rd : RegNum) (op : BitVec 7) :
    rdOf (encJ off rd op) = rd := by
  apply BitVec.eq_of_getLsbD_eq; intro i hi
  simp only [rdOf, encJ, BitVec.getLsbD_extractLsb', BitVec.getLsbD_append]
  interval_cases i <;> simp

@[simp] theorem immI_encI (imm : BitVec 12) (rs1 : RegNum) (f3 : BitVec 3) (rd : RegNum) (op : BitVec 7) :
    immI (encI imm rs1 f3 rd op) = imm := by
  apply BitVec.eq_of_getLsbD_eq; intro i hi
  simp only [immI, encI, BitVec.getLsbD_extractLsb', BitVec.getLsbD_append]
  interval_cases i <;> simp

@[simp] theorem immS_encS (imm : BitVec 12) (rs2 rs1 : RegNum) (f3 : BitVec 3) (op : BitVec 7) :
    immS (encS imm rs2 rs1 f3 op) = imm := by
  apply BitVec.eq_of_getLsbD_eq; intro i hi
  simp only [immS, encS, BitVec.getLsbD_extractLsb', BitVec.getLsbD_append]
  interval_cases i <;> simp

@[simp] theorem immU_encU (imm : BitVec 20) (rd : RegNum) (op : BitVec 7) :
    immU (encU imm rd op) = imm := by
  apply BitVec.eq_of_getLsbD_eq; intro i hi
  simp only [immU, encU, BitVec.getLsbD_extractLsb', BitVec.getLsbD_append]
  interval_cases i <;> simp

theorem offB_encB (off : BitVec 13) (rs2 rs1 : RegNum) (f3 : BitVec 3) (op : BitVec 7) (h : off.getLsbD 0 = false) :
    offB (encB off rs2 rs1 f3 op) = off := by
  apply BitVec.eq_of_getLsbD_eq; intro i hi
  simp only [offB, encB, BitVec.getLsbD_extractLsb', BitVec.getLsbD_append]
  interval_cases i
  · simpa using h.symm
  all_goals simp

theorem offJ_encJ (off : BitVec 21) (rd : RegNum) (op : BitVec 7) (h : off.getLsbD 0 = false) :
    offJ (encJ off rd op) = off := by
  apply BitVec.eq_of_getLsbD_eq; intro i hi
  simp only [offJ, encJ, BitVec.getLsbD_extractLsb', BitVec.getLsbD_append]
  interval_cases i
  · simpa using h.symm
  all_goals simp

@[simp] theorem shamt6_encI (f6 : BitVec 6) (shamt : BitVec 6) (rs1 : RegNum) (f3 : BitVec 3) (rd : RegNum) (op : BitVec 7) :
    shamt6 (encI (f6 ++ shamt) rs1 f3 rd op) = shamt := by
  apply BitVec.eq_of_getLsbD_eq; intro i hi
  simp only [shamt6, encI, BitVec.getLsbD_extractLsb', BitVec.getLsbD_append]
  interval_cases i <;> simp

@[simp] theorem fmOf_encI (fm pred succ : BitVec 4) (rs1 : RegNum) (f3 : BitVec 3) (rd : RegNum) (op : BitVec 7) :
    fmOf (encI (fm ++ pred ++ succ) rs1 f3 rd op) = fm := by
  apply BitVec.eq_of_getLsbD_eq; intro i hi
  simp only [fmOf, encI, BitVec.getLsbD_extractLsb', BitVec.getLsbD_append]
  interval_cases i <;> simp

@[simp] theorem predOf_encI (fm pred succ : BitVec 4) (rs1 : RegNum) (f3 : BitVec 3) (rd : RegNum) (op : BitVec 7) :
    predOf (encI (fm ++ pred ++ succ) rs1 f3 rd op) = pred := by
  apply BitVec.eq_of_getLsbD_eq; intro i hi
  simp only [predOf, encI, BitVec.getLsbD_extractLsb', BitVec.getLsbD_append]
  interval_cases i <;> simp

@[simp] theorem succOf_encI (fm pred succ : BitVec 4) (rs1 : RegNum) (f3 : BitVec 3) (rd : RegNum) (op : BitVec 7) :
    succOf (encI (fm ++ pred ++ succ) rs1 f3 rd op) = succ := by
  apply BitVec.eq_of_getLsbD_eq; intro i hi
  simp only [succOf, encI, BitVec.getLsbD_extractLsb', BitVec.getLsbD_append]
  interval_cases i <;> simp

/-! ## Fixed bits under the masks of the table -/

theorem encR_masked (f7 : BitVec 7) (rs2 rs1 : RegNum) (f3 : BitVec 3) (rd : RegNum) (op : BitVec 7) :
    encR f7 rs2 rs1 f3 rd op &&& 0xFE00707F#32 = encR f7 0 0 f3 0 op := by
  apply BitVec.eq_of_getLsbD_eq; intro i hi
  simp only [encR, BitVec.getLsbD_append, BitVec.getLsbD_and]
  interval_cases i <;> simp

theorem encR_masked_rd (f7 : BitVec 7) (rs2 rs1 : RegNum) (f3 : BitVec 3) (rd : RegNum) (op : BitVec 7) :
    encR f7 rs2 rs1 f3 rd op &&& 0xFE007FFF#32 = encR f7 0 0 f3 rd op := by
  apply BitVec.eq_of_getLsbD_eq; intro i hi
  simp only [encR, BitVec.getLsbD_append, BitVec.getLsbD_and]
  interval_cases i <;> simp

theorem encI_masked (imm : BitVec 12) (rs1 : RegNum) (f3 : BitVec 3) (rd : RegNum) (op : BitVec 7) :
    encI imm rs1 f3 rd op &&& 0x0000707F#32 = encI 0 0 f3 0 op := by
  apply BitVec.eq_of_getLsbD_eq; intro i hi
  simp only [encI, BitVec.getLsbD_append, BitVec.getLsbD_and]
  interval_cases i <;> simp

theorem encI_shift_masked64 (f6 : BitVec 6) (shamt : BitVec 6) (rs1 : RegNum) (f3 : BitVec 3) (rd : RegNum) (op : BitVec 7) :
    encI (f6 ++ shamt) rs1 f3 rd op &&& 0xFC00707F#32 = encI (f6 ++ 0#6) 0 f3 0 op := by
  apply BitVec.eq_of_getLsbD_eq; intro i hi
  simp only [encI, BitVec.getLsbD_append, BitVec.getLsbD_and]
  interval_cases i <;> simp

theorem encI_shift_masked32 (f6 : BitVec 6) (shamt : BitVec 6) (rs1 : RegNum) (f3 : BitVec 3) (rd : RegNum)
    (op : BitVec 7) (h : shamt.getLsbD 5 = false) :
    encI (f6 ++ shamt) rs1 f3 rd op &&& 0xFE00707F#32 = encI (f6 ++ 0#6) 0 f3 0 op := by
  apply BitVec.eq_of_getLsbD_eq; intro i hi
  simp only [encI, BitVec.getLsbD_and, BitVec.getLsbD_append]
  interval_cases i
  all_goals first | (simp; done) | simpa using h

theorem encS_masked (imm : BitVec 12) (rs2 rs1 : RegNum) (f3 : BitVec 3) (op : BitVec 7) :
    encS imm rs2 rs1 f3 op &&& 0x0000707F#32 = encS 0 0 0 f3 op := by
  apply BitVec.eq_of_getLsbD_eq; intro i hi
  simp only [encS, BitVec.getLsbD_extractLsb', BitVec.getLsbD_append, BitVec.getLsbD_and]
  interval_cases i <;> simp

theorem encB_masked (off : BitVec 13) (rs2 rs1 : RegNum) (f3 : BitVec 3) (op : BitVec 7) :
    encB off rs2 rs1 f3 op &&& 0x0000707F#32 = encB 0 0 0 f3 op := by
  apply BitVec.eq_of_getLsbD_eq; intro i hi
  simp only [encB, BitVec.getLsbD_extractLsb', BitVec.getLsbD_append, BitVec.getLsbD_and]
  interval_cases i <;> simp

theorem encU_masked (imm : BitVec 20) (rd : RegNum) (op : BitVec 7) :
    encU imm rd op &&& 0x0000007F#32 = encU 0 0 op := by
  apply BitVec.eq_of_getLsbD_eq; intro i hi
  simp only [encU, BitVec.getLsbD_append, BitVec.getLsbD_and]
  interval_cases i <;> simp

theorem encJ_masked (off : BitVec 21) (rd : RegNum) (op : BitVec 7) :
    encJ off rd op &&& 0x0000007F#32 = encJ 0 0 op := by
  apply BitVec.eq_of_getLsbD_eq; intro i hi
  simp only [encJ, BitVec.getLsbD_extractLsb', BitVec.getLsbD_append, BitVec.getLsbD_and]
  interval_cases i <;> simp

/-! ## Words rebuilt from their fields, once the fixed bits are known -/

theorem encR_rebuild {w : InstrWord} {f7 : BitVec 7} {f3 : BitVec 3} {op : BitVec 7}
    (h : w &&& 0xFE00707F#32 = encR f7 0 0 f3 0 op) :
    encR f7 (rs2Of w) (rs1Of w) f3 (rdOf w) op = w := by
  apply BitVec.eq_of_getLsbD_eq; intro i hi
  have hb := congrArg (fun v => v.getLsbD i) h
  simp only [encR, rs2Of, rs1Of, rdOf, BitVec.getLsbD_extractLsb', BitVec.getLsbD_and, BitVec.getLsbD_append] at hb ⊢
  interval_cases i <;> simp at hb ⊢ <;> exact hb.symm

theorem encR_rebuild_rd {w : InstrWord} {f7 : BitVec 7} {f3 : BitVec 3} {rd : RegNum} {op : BitVec 7}
    (h : w &&& 0xFE007FFF#32 = encR f7 0 0 f3 rd op) :
    encR f7 (rs2Of w) (rs1Of w) f3 rd op = w := by
  apply BitVec.eq_of_getLsbD_eq; intro i hi
  have hb := congrArg (fun v => v.getLsbD i) h
  simp only [encR, rs2Of, rs1Of, BitVec.getLsbD_extractLsb', BitVec.getLsbD_and, BitVec.getLsbD_append] at hb ⊢
  interval_cases i <;> simp at hb ⊢ <;> exact hb.symm

theorem encI_rebuild {w : InstrWord} {f3 : BitVec 3} {op : BitVec 7}
    (h : w &&& 0x0000707F#32 = encI 0 0 f3 0 op) :
    encI (immI w) (rs1Of w) f3 (rdOf w) op = w := by
  apply BitVec.eq_of_getLsbD_eq; intro i hi
  have hb := congrArg (fun v => v.getLsbD i) h
  simp only [encI, immI, rs1Of, rdOf, BitVec.getLsbD_extractLsb', BitVec.getLsbD_and, BitVec.getLsbD_append] at hb ⊢
  interval_cases i <;> simp at hb ⊢ <;> exact hb.symm

theorem encI_shift_rebuild64 {w : InstrWord} {f6 : BitVec 6} {f3 : BitVec 3} {op : BitVec 7}
    (h : w &&& 0xFC00707F#32 = encI (f6 ++ 0#6) 0 f3 0 op) :
    encI (f6 ++ shamt6 w) (rs1Of w) f3 (rdOf w) op = w := by
  apply BitVec.eq_of_getLsbD_eq; intro i hi
  have hb := congrArg (fun v => v.getLsbD i) h
  simp only [encI, shamt6, rs1Of, rdOf, BitVec.getLsbD_extractLsb', BitVec.getLsbD_and, BitVec.getLsbD_append] at hb ⊢
  interval_cases i <;> simp at hb ⊢ <;> exact hb.symm

theorem encI_shift_rebuild32 {w : InstrWord} {f6 : BitVec 6} {f3 : BitVec 3} {op : BitVec 7}
    (h : w &&& 0xFE00707F#32 = encI (f6 ++ 0#6) 0 f3 0 op) :
    encI (f6 ++ shamt6 w) (rs1Of w) f3 (rdOf w) op = w := by
  apply BitVec.eq_of_getLsbD_eq; intro i hi
  have hb := congrArg (fun v => v.getLsbD i) h
  simp only [encI, shamt6, rs1Of, rdOf, BitVec.getLsbD_extractLsb', BitVec.getLsbD_and, BitVec.getLsbD_append] at hb ⊢
  interval_cases i <;> simp at hb ⊢ <;> exact hb.symm

theorem shamt6_of_masked32 {w : InstrWord} {f6 : BitVec 6} {f3 : BitVec 3} {op : BitVec 7}
    (h : w &&& 0xFE00707F#32 = encI (f6 ++ 0#6) 0 f3 0 op) : (shamt6 w).getLsbD 5 = false := by
  have hb := congrArg (fun v => v.getLsbD 25) h
  simp only [encI, shamt6, BitVec.getLsbD_extractLsb', BitVec.getLsbD_and, BitVec.getLsbD_append] at hb ⊢
  simpa using hb

theorem encI_fence_rebuild {w : InstrWord} {f3 : BitVec 3} {op : BitVec 7}
    (h : w &&& 0x0000707F#32 = encI 0 0 f3 0 op) :
    encI (fmOf w ++ predOf w ++ succOf w) (rs1Of w) f3 (rdOf w) op = w := by
  apply BitVec.eq_of_getLsbD_eq; intro i hi
  have hb := congrArg (fun v => v.getLsbD i) h
  simp only [encI, fmOf, predOf, succOf, rs1Of, rdOf, BitVec.getLsbD_extractLsb', BitVec.getLsbD_and, BitVec.getLsbD_append] at hb ⊢
  interval_cases i <;> simp at hb ⊢ <;> exact hb.symm

theorem encS_rebuild {w : InstrWord} {f3 : BitVec 3} {op : BitVec 7}
    (h : w &&& 0x0000707F#32 = encS 0 0 0 f3 op) :
    encS (immS w) (rs2Of w) (rs1Of w) f3 op = w := by
  apply BitVec.eq_of_getLsbD_eq; intro i hi
  have hb := congrArg (fun v => v.getLsbD i) h
  simp only [encS, immS, rs2Of, rs1Of, BitVec.getLsbD_extractLsb', BitVec.getLsbD_and, BitVec.getLsbD_append] at hb ⊢
  interval_cases i <;> simp at hb ⊢ <;> exact hb.symm

theorem encB_rebuild {w : InstrWord} {f3 : BitVec 3} {op : BitVec 7}
    (h : w &&& 0x0000707F#32 = encB 0 0 0 f3 op) :
    encB (offB w) (rs2Of w) (rs1Of w) f3 op = w := by
  apply BitVec.eq_of_getLsbD_eq; intro i hi
  have hb := congrArg (fun v => v.getLsbD i) h
  simp only [encB, offB, rs2Of, rs1Of, BitVec.getLsbD_extractLsb', BitVec.getLsbD_and, BitVec.getLsbD_append] at hb ⊢
  interval_cases i <;> simp at hb ⊢ <;> exact hb.symm

theorem encU_rebuild {w : InstrWord} {op : BitVec 7}
    (h : w &&& 0x0000007F#32 = encU 0 0 op) :
    encU (immU w) (rdOf w) op = w := by
  apply BitVec.eq_of_getLsbD_eq; intro i hi
  have hb := congrArg (fun v => v.getLsbD i) h
  simp only [encU, immU, rdOf, BitVec.getLsbD_extractLsb', BitVec.getLsbD_and, BitVec.getLsbD_append] at hb ⊢
  interval_cases i <;> simp at hb ⊢ <;> exact hb.symm

theorem encJ_rebuild {w : InstrWord} {op : BitVec 7}
    (h : w &&& 0x0000007F#32 = encJ 0 0 op) :
    encJ (offJ w) (rdOf w) op = w := by
  apply BitVec.eq_of_getLsbD_eq; intro i hi
  have hb := congrArg (fun v => v.getLsbD i) h
  simp only [encJ, offJ, rdOf, BitVec.getLsbD_extractLsb', BitVec.getLsbD_and, BitVec.getLsbD_append] at hb ⊢
  interval_cases i <;> simp at hb ⊢ <;> exact hb.symm

theorem offB_even (w : InstrWord) : (offB w).getLsbD 0 = false := by
  simp only [offB, BitVec.getLsbD_append]; simp

theorem offJ_even (w : InstrWord) : (offJ w).getLsbD 0 = false := by
  simp only [offJ, BitVec.getLsbD_append]; simp

end Sys2Proof
end

