-- ==== Sys2Proof/Laws/Exec.lean ====
section
/-! SUPPORT. Everything one instruction can answer, said once for all of them. -/

namespace Sys2Proof.Machine

/-- The ways an instruction can change the state: `Effect i s t` for each next state `t` that `exec i s` can answer. -/
inductive Effect (i : Instr) (s : State) : State → Prop
  /-- An exception, with an XLEN-bit trap value or `pc` as trap value. -/
  | trap (e : Exc) (v : Word) (hv : narrow s.xlen v = v ∨ v = s.pc) : Effect i s (s.takeException e v)
  /-- A register written. -/
  | write (rd : RegNum) (v : Word) : Effect i s (s.setX rd v).retire
  /-- Nothing but the next instruction: a branch not taken, SFENCE.VMA. -/
  | goOn : Effect i s s.retire
  /-- A branch taken. -/
  | jump (p : Word) (hp : p.toNat % 4 = 0) (hn : narrow s.xlen p = p) : Effect i s (s.retireTo p)
  /-- A jump that links. -/
  | link (rd : RegNum) (p : Word) (hp : p.toNat % 4 = 0) (hn : narrow s.xlen p = p) :
      Effect i s ((s.setX rd s.nextPc).retireTo p)
  /-- A load. -/
  | load (a : Word) (n : Nat) (rd : RegNum) (v w : Word) (u : State) (h : memRead s a n = .ok (v, u)) :
      Effect i s (u.setX rd w).retire
  /-- A store. -/
  | store (rs1 rs2 : RegNum) (imm : BitVec 12) (n : Nat) (u : State)
      (hi : i = .sb rs1 rs2 imm ∧ n = 1 ∨ i = .sh rs1 rs2 imm ∧ n = 2 ∨ i = .sw rs1 rs2 imm ∧ n = 4 ∨
        i = .sd rs1 rs2 imm ∧ n = 8)
      (h : memWrite s (effectiveAddress s rs1 imm) n (s.x rs2) = .ok u) : Effect i s u.retire
  /-- A CSR instruction that only reads. -/
  | csrReads (a : BitVec 12) (c : Csr) (rd : RegNum) (v : Word) (h : csrCheck s a false = some c) :
      Effect i s (csrRetire c false (s.setX rd v))
  /-- A CSR instruction that writes. -/
  | csrWrites (a : BitVec 12) (c : Csr) (rd : RegNum) (v new : Word) (u : State) (h : csrCheck s a true = some c)
      (hw : csrWrite c new s = .ok u) : Effect i s (csrRetire c true (u.setX rd v))
  /-- FENCE. -/
  | fence (pred succ : BitVec 4) :
      Effect i s { s with ioHistory := s.ioHistory ++ [IoEvent.fence pred succ] }.retire
  /-- FENCE.I. -/
  | fenceI : Effect i s { s with staleFetch := [] }.retire
  /-- WFI. -/
  | wfi (h : s.priv ≠ .u) : Effect i s { s with wfiWait := true }.retire
  /-- MRET. -/
  | mret (hi : i = .mret) (h : s.priv = .m) : Effect i s s.returnM
  /-- SRET. -/
  | sret (hi : i = .sret) (h : s.priv ≠ .u) : Effect i s s.returnS

/-- An answer of `exec`: an effect, or the refusal of a non-zero write to `satp` (10_state.md R46) or of an exception
through an unwritten vector (70_reset_and_hazards.md R362). No fault. -/
def Answers (i : Instr) (s : State) (r : Result) : Prop :=
  (∃ t, r = .next t ∧ Effect i s t) ∨ r = .refused .satpNonZero ∨ r = .refused .vectorUnwritten

theorem Answers.next {i : Instr} {s t : State} (h : Effect i s t) : Answers i s (.next t) := .inl ⟨t, rfl, h⟩

theorem Answers.raise {i : Instr} {s : State} {e : Exc} {v : Word} (hv : narrow s.xlen v = v ∨ v = s.pc) :
    Answers i s (raise e v s) := by
  rcases raise_cases e v s with ⟨-, h⟩ | ⟨-, h⟩ <;> rw [h]
  · exact .next (.trap e v hv)
  · exact .inr (.inr rfl)

theorem Answers.raiseIllegal {i : Instr} {s : State} {w : InstrWord} : Answers i s (raiseIllegal w s) :=
  .raise (.inl (narrow_narrow _ _))

theorem Answers.writeAndRetire {i : Instr} {s : State} {rd : RegNum} {v : Word} :
    Answers i s (writeAndRetire rd v s) := .next (.write rd v)

theorem Answers.onlyRV64 {i j : Instr} {s : State} {b : Result} (h : Answers i s b) : Answers i s (onlyRV64 j b s) := by
  rcases onlyRV64_cases j b s with ⟨-, h'⟩ | ⟨-, h'⟩ <;> rw [h']
  · exact h
  · exact .raiseIllegal

theorem Answers.shiftImm {i j : Instr} {s : State} {sh : BitVec 6} {rd : RegNum} {v : Word} :
    Answers i s (shiftImm j sh rd v s) := by
  unfold Sys2Proof.Machine.shiftImm; split
  · exact .writeAndRetire
  · exact .raiseIllegal

theorem Answers.transfer {i : Instr} {s : State} {l : Option RegNum} {p : Word} (hn : narrow s.xlen p = p) :
    Answers i s (transfer l p s) := by
  rcases transfer_cases l p s with ⟨-, h⟩ | ⟨h4, -, h⟩ | ⟨h4, rd, -, h⟩ <;> rw [h]
  · exact .raise (.inl hn)
  · exact .next (.jump p h4 hn)
  · exact .next (.link rd p h4 hn)

theorem Answers.branch {i : Instr} {s : State} {b : Bool} {off : BitVec 13} : Answers i s (branch b off s) := by
  unfold Sys2Proof.Machine.branch; split
  · exact .transfer (narrow_narrow _ _)
  · exact .next .goOn

theorem Answers.load {i : Instr} {s : State} {n : Nat} {f : Word → Word} {rd rs1 : RegNum} {imm : BitVec 12} :
    Answers i s (load n f rd rs1 imm s) := by
  rcases load_cases n f rd rs1 imm s with ⟨e, -, h⟩ | ⟨v, t, hr, h⟩ <;> rw [h]
  · exact .raise (.inl (narrow_narrow _ _))
  · exact .next (.load _ n rd v _ t hr)

theorem Answers.store {i : Instr} {s : State} {n : Nat} {rs1 rs2 : RegNum} {imm : BitVec 12}
    (hi : i = .sb rs1 rs2 imm ∧ n = 1 ∨ i = .sh rs1 rs2 imm ∧ n = 2 ∨ i = .sw rs1 rs2 imm ∧ n = 4 ∨
      i = .sd rs1 rs2 imm ∧ n = 8) : Answers i s (store n rs1 rs2 imm s) := by
  rcases store_cases n rs1 rs2 imm s with ⟨e, -, h⟩ | ⟨t, hw, h⟩ <;> rw [h]
  · exact .raise (.inl (narrow_narrow _ _))
  · exact .next (.store rs1 rs2 imm n t hi hw)

theorem Answers.csrOp {i j : Instr} {s : State} {rd : RegNum} {a : BitVec 12} {w : Bool} {f : Word → Word} :
    Answers i s (csrOp j rd a w f s) := by
  rcases csrOp_cases j rd a w f s with ⟨-, h⟩ | ⟨c, hc, ⟨rfl, h⟩ | ⟨rfl, r, he, h⟩ | ⟨rfl, u, hu, h⟩⟩ <;> rw [h]
  · exact .raiseIllegal
  · exact .next (.csrReads a c rd _ hc)
  · rw [(csrWrite_error he).2.2]; exact .inr (.inl rfl)
  · exact .next (.csrWrites a c rd _ _ u hc hu)

/-- Clearing bit 0 of an XLEN-bit value leaves an XLEN-bit value. -/
theorem narrow_clearBit0 (xl : Xlen) (v : Word) : narrow xl (clearBit0 (narrow xl v)) = clearBit0 (narrow xl v) := by
  apply BitVec.eq_of_getLsbD_eq; intro k hk
  simp only [clearBit0, getLsbD_narrow, getLsbD_setBit _ _ _ _ hk]
  split
  · simp
  · cases decide (k < xl.bits) <;> simp

/-- Clearing bits [1:0] of an XLEN-bit value leaves an XLEN-bit value. -/
theorem narrow_clearLow2 (xl : Xlen) (v : Word) (h : narrow xl v = v) : narrow xl (clearLow2 v) = clearLow2 v := by
  rw [narrow_eq_self_iff] at h ⊢
  rw [clearLow2_toNat]; omega

theorem sModeAllowed_priv {s : State} {g : Nat} (h : sModeAllowed s g = true) : s.priv ≠ .u := by
  intro hp; simp [sModeAllowed, hp] at h

/-- Every instruction answers a next state that is one of the effects, or one of the two refusals. -/
theorem exec_answers (i : Instr) (s : State) : Answers i s (exec i s) := by
  cases i
  case mret =>
    show Answers _ s (execMret s)
    unfold execMret; split
    · next h => exact .next (.mret rfl h)
    · exact .raiseIllegal
  case sret =>
    show Answers _ s (execSret s)
    unfold execSret; split
    · next h => exact .next (.sret rfl (sModeAllowed_priv h))
    · exact .raiseIllegal
  case wfi =>
    show Answers _ s (execWfi s)
    unfold execWfi; split
    · next h => exact .next (.wfi (sModeAllowed_priv h))
    · exact .raiseIllegal
  case sfenceVma rs1 rs2 =>
    show Answers _ s (execSfenceVma rs1 rs2 s)
    unfold execSfenceVma; split
    · exact .next .goOn
    · exact .raiseIllegal
  case ecall => exact .raise (.inl (narrow_zero _))
  case ebreak =>
    refine .raise ?_
    split
    · exact .inr rfl
    · exact .inl (narrow_zero _)
  case fence => exact .next (.fence _ _)
  case fenceI => exact .next .fenceI
  case jal rd off =>
    have h : exec (.jal rd off) s = execJal rd off s := rfl
    rw [h]; show Answers _ s (transfer (some rd) (relativeTarget s off) s); exact .transfer (narrow_narrow _ _)
  case jalr rd rs1 imm =>
    have h : exec (.jalr rd rs1 imm) s = execJalr rd rs1 imm s := rfl
    rw [h]; show Answers _ s (transfer (some rd) (jalrTarget s rs1 imm) s); exact .transfer (narrow_clearBit0 _ _)
  case sb rs1 rs2 imm =>
    have h : exec (.sb rs1 rs2 imm) s = execSb rs1 rs2 imm s := rfl
    rw [h]; show Answers _ s (store _ _ _ _ s); exact .store (.inl ⟨rfl, rfl⟩)
  case sh rs1 rs2 imm =>
    have h : exec (.sh rs1 rs2 imm) s = execSh rs1 rs2 imm s := rfl
    rw [h]; show Answers _ s (store _ _ _ _ s); exact .store (.inr (.inl ⟨rfl, rfl⟩))
  case sw rs1 rs2 imm =>
    have h : exec (.sw rs1 rs2 imm) s = execSw rs1 rs2 imm s := rfl
    rw [h]; show Answers _ s (store _ _ _ _ s); exact .store (.inr (.inr (.inl ⟨rfl, rfl⟩)))
  case sd rs1 rs2 imm =>
    have h : exec (.sd rs1 rs2 imm) s = execSd rs1 rs2 imm s := rfl
    rw [h]; show Answers _ s (onlyRV64 _ (store _ _ _ _ s) s); exact .onlyRV64 (.store (.inr (.inr (.inr ⟨rfl, rfl⟩))))
  case lwu rd rs1 imm =>
    have h : exec (.lwu rd rs1 imm) s = execLwu rd rs1 imm s := rfl
    rw [h]; show Answers _ s (onlyRV64 _ (load _ _ _ _ _ s) s); exact .onlyRV64 .load
  case ld rd rs1 imm =>
    have h : exec (.ld rd rs1 imm) s = execLd rd rs1 imm s := rfl
    rw [h]; show Answers _ s (onlyRV64 _ (load _ _ _ _ _ s) s); exact .onlyRV64 .load
  case sll rd rs1 rs2 =>
    have h : exec (.sll rd rs1 rs2) s = execSll rd rs1 rs2 s := rfl
    rw [h]; show Answers _ s (writeAndRetire _ _ s); exact .writeAndRetire
  case srl rd rs1 rs2 =>
    have h : exec (.srl rd rs1 rs2) s = execSrl rd rs1 rs2 s := rfl
    rw [h]; show Answers _ s (writeAndRetire _ _ s); exact .writeAndRetire
  case sra rd rs1 rs2 =>
    have h : exec (.sra rd rs1 rs2) s = execSra rd rs1 rs2 s := rfl
    rw [h]; show Answers _ s (writeAndRetire _ _ s); exact .writeAndRetire
  case add rd rs1 rs2 =>
    have h : exec (.add rd rs1 rs2) s = execAdd rd rs1 rs2 s := rfl
    rw [h]; show Answers _ s (writeAndRetire _ _ s); exact .writeAndRetire
  case addi rd rs1 imm =>
    have h : exec (.addi rd rs1 imm) s = execAddi rd rs1 imm s := rfl
    rw [h]; show Answers _ s (writeAndRetire _ _ s); exact .writeAndRetire
  case sub rd rs1 rs2 =>
    have h : exec (.sub rd rs1 rs2) s = execSub rd rs1 rs2 s := rfl
    rw [h]; show Answers _ s (writeAndRetire _ _ s); exact .writeAndRetire
  case lui rd imm =>
    have h : exec (.lui rd imm) s = execLui rd imm s := rfl
    rw [h]; show Answers _ s (writeAndRetire _ _ s); exact .writeAndRetire
  case auipc rd imm =>
    have h : exec (.auipc rd imm) s = execAuipc rd imm s := rfl
    rw [h]; show Answers _ s (writeAndRetire _ _ s); exact .writeAndRetire
  case xor rd rs1 rs2 =>
    have h : exec (.xor rd rs1 rs2) s = execXor rd rs1 rs2 s := rfl
    rw [h]; show Answers _ s (writeAndRetire _ _ s); exact .writeAndRetire
  case xori rd rs1 imm =>
    have h : exec (.xori rd rs1 imm) s = execXori rd rs1 imm s := rfl
    rw [h]; show Answers _ s (writeAndRetire _ _ s); exact .writeAndRetire
  case or rd rs1 rs2 =>
    have h : exec (.or rd rs1 rs2) s = execOr rd rs1 rs2 s := rfl
    rw [h]; show Answers _ s (writeAndRetire _ _ s); exact .writeAndRetire
  case ori rd rs1 imm =>
    have h : exec (.ori rd rs1 imm) s = execOri rd rs1 imm s := rfl
    rw [h]; show Answers _ s (writeAndRetire _ _ s); exact .writeAndRetire
  case and rd rs1 rs2 =>
    have h : exec (.and rd rs1 rs2) s = execAnd rd rs1 rs2 s := rfl
    rw [h]; show Answers _ s (writeAndRetire _ _ s); exact .writeAndRetire
  case andi rd rs1 imm =>
    have h : exec (.andi rd rs1 imm) s = execAndi rd rs1 imm s := rfl
    rw [h]; show Answers _ s (writeAndRetire _ _ s); exact .writeAndRetire
  case slt rd rs1 rs2 =>
    have h : exec (.slt rd rs1 rs2) s = execSlt rd rs1 rs2 s := rfl
    rw [h]; show Answers _ s (writeAndRetire _ _ s); exact .writeAndRetire
  case slti rd rs1 imm =>
    have h : exec (.slti rd rs1 imm) s = execSlti rd rs1 imm s := rfl
    rw [h]; show Answers _ s (writeAndRetire _ _ s); exact .writeAndRetire
  case sltu rd rs1 rs2 =>
    have h : exec (.sltu rd rs1 rs2) s = execSltu rd rs1 rs2 s := rfl
    rw [h]; show Answers _ s (writeAndRetire _ _ s); exact .writeAndRetire
  case sltiu rd rs1 imm =>
    have h : exec (.sltiu rd rs1 imm) s = execSltiu rd rs1 imm s := rfl
    rw [h]; show Answers _ s (writeAndRetire _ _ s); exact .writeAndRetire
  case sllw rd rs1 rs2 =>
    have h : exec (.sllw rd rs1 rs2) s = execSllw rd rs1 rs2 s := rfl
    rw [h]; show Answers _ s (writeW _ _ _ s); exact .onlyRV64 .writeAndRetire
  case slliw rd rs1 shamt =>
    have h : exec (.slliw rd rs1 shamt) s = execSlliw rd rs1 shamt s := rfl
    rw [h]; show Answers _ s (writeW _ _ _ s); exact .onlyRV64 .writeAndRetire
  case srlw rd rs1 rs2 =>
    have h : exec (.srlw rd rs1 rs2) s = execSrlw rd rs1 rs2 s := rfl
    rw [h]; show Answers _ s (writeW _ _ _ s); exact .onlyRV64 .writeAndRetire
  case srliw rd rs1 shamt =>
    have h : exec (.srliw rd rs1 shamt) s = execSrliw rd rs1 shamt s := rfl
    rw [h]; show Answers _ s (writeW _ _ _ s); exact .onlyRV64 .writeAndRetire
  case sraw rd rs1 rs2 =>
    have h : exec (.sraw rd rs1 rs2) s = execSraw rd rs1 rs2 s := rfl
    rw [h]; show Answers _ s (writeW _ _ _ s); exact .onlyRV64 .writeAndRetire
  case sraiw rd rs1 shamt =>
    have h : exec (.sraiw rd rs1 shamt) s = execSraiw rd rs1 shamt s := rfl
    rw [h]; show Answers _ s (writeW _ _ _ s); exact .onlyRV64 .writeAndRetire
  case addw rd rs1 rs2 =>
    have h : exec (.addw rd rs1 rs2) s = execAddw rd rs1 rs2 s := rfl
    rw [h]; show Answers _ s (writeW _ _ _ s); exact .onlyRV64 .writeAndRetire
  case addiw rd rs1 imm =>
    have h : exec (.addiw rd rs1 imm) s = execAddiw rd rs1 imm s := rfl
    rw [h]; show Answers _ s (writeW _ _ _ s); exact .onlyRV64 .writeAndRetire
  case subw rd rs1 rs2 =>
    have h : exec (.subw rd rs1 rs2) s = execSubw rd rs1 rs2 s := rfl
    rw [h]; show Answers _ s (writeW _ _ _ s); exact .onlyRV64 .writeAndRetire
  case slli rd rs1 shamt =>
    have h : exec (.slli rd rs1 shamt) s = execSlli rd rs1 shamt s := rfl
    rw [h]; show Answers _ s (shiftImm _ _ _ _ s); exact .shiftImm
  case srli rd rs1 shamt =>
    have h : exec (.srli rd rs1 shamt) s = execSrli rd rs1 shamt s := rfl
    rw [h]; show Answers _ s (shiftImm _ _ _ _ s); exact .shiftImm
  case srai rd rs1 shamt =>
    have h : exec (.srai rd rs1 shamt) s = execSrai rd rs1 shamt s := rfl
    rw [h]; show Answers _ s (shiftImm _ _ _ _ s); exact .shiftImm
  case beq rs1 rs2 off =>
    have h : exec (.beq rs1 rs2 off) s = execBeq rs1 rs2 off s := rfl
    rw [h]; show Answers _ s (branch _ _ s); exact .branch
  case bne rs1 rs2 off =>
    have h : exec (.bne rs1 rs2 off) s = execBne rs1 rs2 off s := rfl
    rw [h]; show Answers _ s (branch _ _ s); exact .branch
  case blt rs1 rs2 off =>
    have h : exec (.blt rs1 rs2 off) s = execBlt rs1 rs2 off s := rfl
    rw [h]; show Answers _ s (branch _ _ s); exact .branch
  case bge rs1 rs2 off =>
    have h : exec (.bge rs1 rs2 off) s = execBge rs1 rs2 off s := rfl
    rw [h]; show Answers _ s (branch _ _ s); exact .branch
  case bltu rs1 rs2 off =>
    have h : exec (.bltu rs1 rs2 off) s = execBltu rs1 rs2 off s := rfl
    rw [h]; show Answers _ s (branch _ _ s); exact .branch
  case bgeu rs1 rs2 off =>
    have h : exec (.bgeu rs1 rs2 off) s = execBgeu rs1 rs2 off s := rfl
    rw [h]; show Answers _ s (branch _ _ s); exact .branch
  case lb rd rs1 imm =>
    have h : exec (.lb rd rs1 imm) s = execLb rd rs1 imm s := rfl
    rw [h]; show Answers _ s (load _ _ _ _ _ s); exact .load
  case lh rd rs1 imm =>
    have h : exec (.lh rd rs1 imm) s = execLh rd rs1 imm s := rfl
    rw [h]; show Answers _ s (load _ _ _ _ _ s); exact .load
  case lw rd rs1 imm =>
    have h : exec (.lw rd rs1 imm) s = execLw rd rs1 imm s := rfl
    rw [h]; show Answers _ s (load _ _ _ _ _ s); exact .load
  case lbu rd rs1 imm =>
    have h : exec (.lbu rd rs1 imm) s = execLbu rd rs1 imm s := rfl
    rw [h]; show Answers _ s (load _ _ _ _ _ s); exact .load
  case lhu rd rs1 imm =>
    have h : exec (.lhu rd rs1 imm) s = execLhu rd rs1 imm s := rfl
    rw [h]; show Answers _ s (load _ _ _ _ _ s); exact .load
  case csrrw rd csr rs1 =>
    have h : exec (.csrrw rd csr rs1) s = execCsrrw rd csr rs1 s := rfl
    rw [h]; show Answers _ s (csrOp _ _ _ _ _ s); exact .csrOp
  case csrrs rd csr rs1 =>
    have h : exec (.csrrs rd csr rs1) s = execCsrrs rd csr rs1 s := rfl
    rw [h]; show Answers _ s (csrOp _ _ _ _ _ s); exact .csrOp
  case csrrc rd csr rs1 =>
    have h : exec (.csrrc rd csr rs1) s = execCsrrc rd csr rs1 s := rfl
    rw [h]; show Answers _ s (csrOp _ _ _ _ _ s); exact .csrOp
  case csrrwi rd csr uimm =>
    have h : exec (.csrrwi rd csr uimm) s = execCsrrwi rd csr uimm s := rfl
    rw [h]; show Answers _ s (csrOp _ _ _ _ _ s); exact .csrOp
  case csrrsi rd csr uimm =>
    have h : exec (.csrrsi rd csr uimm) s = execCsrrsi rd csr uimm s := rfl
    rw [h]; show Answers _ s (csrOp _ _ _ _ _ s); exact .csrOp
  case csrrci rd csr uimm =>
    have h : exec (.csrrci rd csr uimm) s = execCsrrci rd csr uimm s := rfl
    rw [h]; show Answers _ s (csrOp _ _ _ _ _ s); exact .csrOp

end Sys2Proof.Machine
end

