-- ==== Sys2Proof/Laws/Interrupts.lean ====
section
/-! SUPPORT. Which interrupt a step takes, and everything one step can answer. -/

namespace Sys2Proof.Machine

/-- Bit k of `mip` (10_state.md R37). -/
theorem getLsbD_mipWith (s : State) (b : Bool) (k : Nat) (hk : k < 64) :
    (mipWith s b).getLsbD k =
      if k = 1 then s.ssip else if k = 3 then s.ext.msip else if k = 5 then s.stip else if k = 7 then s.ext.mtip
        else if k = 9 then b else if k = 11 then s.ext.meip else false := by
  simp only [mipWith, BitVec.getLsbD_or, getLsbD_bitAt _ _ _ hk]
  by_cases h1 : k = 1
  · subst h1; simp
  by_cases h3 : k = 3
  · subst h3; simp
  by_cases h5 : k = 5
  · subst h5; simp
  by_cases h7 : k = 7
  · subst h7; simp
  by_cases h9 : k = 9
  · subst h9; simp
  by_cases h11 : k = 11
  · subst h11; simp
  simp [h1, h3, h5, h7, h9, h11]

/-- The list of the takeable interrupts holds exactly those. -/
theorem mem_takeableList {s : State} {i : Interrupt} : i ∈ takeableList s ↔ takeable s i = true := by
  have ho : i ∈ interruptOrder := by cases i <;> decide
  unfold takeableList
  cases hd : s.mideleg.getLsbD i.code <;> simp [ho, hd]

/-- An interrupt that is taken is takeable, and at the head of the list. -/
theorem interruptNow_some {s : State} {i : Interrupt} (h : interruptNow s = some i) :
    (takeableList s).head? = some i ∧ takeable s i = true := by
  unfold interruptNow at h
  simp only at h
  split at h
  · exact ⟨h, mem_takeableList.mp (List.mem_of_mem_head? (by simp [h]))⟩
  · cases h

/-- No interrupt is taken when none is takeable. -/
theorem interruptNow_none_of {s : State} (h : ∀ i, takeable s i = false) : interruptNow s = none := by
  cases hn : interruptNow s with
  | none => rfl
  | some i => have := (interruptNow_some hn).2; rw [h i] at this; cases this

/-- In M-mode with `mstatus.MIE` = 0 nothing is takeable (60_exceptions.md R332). -/
theorem takeable_masked {s : State} (hp : s.priv = .m) (hm : s.mstatus.getLsbD 3 = false) (i : Interrupt) :
    takeable s i = false := by
  simp [takeable, hp, hm]

/-- What a fetched word leads to (00_scope.md R15 step 3). -/
theorem runWord_cases (w : InstrWord) (s : State) :
    (∃ i, decode s.xlen w = .ok i ∧ runWord w s = exec i s) ∨
      ∃ e, decode s.xlen w = .error e ∧ runWord w s = raiseIllegal w s := by
  unfold runWord
  cases h : decode s.xlen w with
  | ok i => exact .inl ⟨i, rfl, rfl⟩
  | error e => exact .inr ⟨e, rfl, rfl⟩

/-- Everything steps (3) and (4) of R15 can answer. -/
theorem fetchAndRun_cases (s : State) :
    (fetch s = .misaligned ∧ fetchAndRun s = .fault .misalignedPc) ∨
      (fetch s = .stale ∧ fetchAndRun s = .refused .staleFetch) ∨
      (fetch s = .accessFault ∧ fetchAndRun s = raise .instrAccessFault s.pc s) ∨
      ∃ w, fetch s = .word w ∧ fetchAndRun s = runWord w s := by
  unfold fetchAndRun
  cases h : fetch s with
  | misaligned => exact .inl ⟨rfl, rfl⟩
  | stale => exact .inr (.inl ⟨rfl, rfl⟩)
  | accessFault => exact .inr (.inr (.inl ⟨rfl, rfl⟩))
  | word w => exact .inr (.inr (.inr ⟨w, rfl, rfl⟩))

/-- Everything steps (2) to (4) of R15 can answer. -/
theorem runActive_cases (s : State) :
    (∃ i, interruptNow s = some i ∧ runActive s = .next (s.interrupted i)) ∨
      (interruptNow s = none ∧ runActive s = fetchAndRun s.holdOff) := by
  unfold runActive
  cases h : interruptNow s with
  | some i => exact .inl ⟨i, rfl, rfl⟩
  | none => exact .inr ⟨rfl, rfl⟩

/-- The state a step acts on after sampling, with the wait of a woken hart over (47_privileged.md R232). -/
theorem step_cases (s : State) :
    (s.wfiWait = true ∧ wakes s.sample = false ∧ step s = .next s.sample.idle) ∨
      ((s.wfiWait = true → wakes s.sample = true) ∧ step s = runActive { s.sample with wfiWait := false }) := by
  unfold step hartStep runSampled
  have hw : s.sample.wfiWait = s.wfiWait := rfl
  cases h : s.wfiWait with
  | false =>
    refine .inr ⟨by simp, ?_⟩
    rw [hw, h, if_neg (by simp)]
    congr 1
    rw [← h, ← hw]
  | true =>
    rw [hw, h]
    cases hk : wakes s.sample with
    | false => exact .inl ⟨rfl, rfl, by simp⟩
    | true => exact .inr ⟨fun _ => rfl, by simp⟩

end Sys2Proof.Machine
end

