-- ==== Sys2Proof/Laws/PerInstr.lean ====
section
/-! SUPPORT. The family `Encoding`: the word of every well-formed instruction hits a row of the opcode table that
rebuilds it, one lemma per constructor (30_encoding.md R111-R121). -/

namespace Sys2Proof.Laws

/-- On every machine on which the instruction is well-formed, its word hits a row, and the row's fields give the
instruction back. -/
def Encoding.Statement (i : Instr) : Prop :=
  ∀ xl, i.wellFormed xl = true → ∃ r ∈ opcodeTable, r.hits xl (encode i) = true ∧ r.build (encode i) = i

/-- A row hits a word with the row's pattern under its mask. -/
theorem row_hits {r : Row} {xl : Xlen} {w : InstrWord} (hv : r.valid xl = true) (hm : w &&& r.mask = r.pattern) :
    r.hits xl w = true := by simp [Row.hits, hv, hm]

theorem Encoding.sll (rd : RegNum) (rs1 : RegNum) (rs2 : RegNum) : Encoding.Statement (.sll rd rs1 rs2) := by
  intro xl h
  exact ⟨opcodeTable[0], List.getElem_mem _, row_hits (by cases xl <;> rfl) ((encR_masked ..).trans rfl),
    congr (congr (congrArg Instr.sll (rdOf_encR ..)) (rs1Of_encR ..)) (rs2Of_encR ..)⟩

theorem Encoding.slli (rd : RegNum) (rs1 : RegNum) (shamt : BitVec 6) : Encoding.Statement (.slli rd rs1 shamt) := by
  intro xl h
  cases xl with
  | rv32 =>
    have h5 : shamt.getLsbD 5 = false := by simpa [Instr.wellFormed, shamtOk] using h
    refine ⟨opcodeTable[1], List.getElem_mem _, row_hits rfl ((encI_shift_masked32 _ _ _ _ _ _ h5).trans rfl), ?_⟩
    exact congr (congr (congrArg Instr.slli (rdOf_encI ..)) (rs1Of_encI ..)) (shamt6_encI ..)
  | rv64 =>
    refine ⟨opcodeTable[2], List.getElem_mem _, row_hits rfl ((encI_shift_masked64 ..).trans rfl), ?_⟩
    exact congr (congr (congrArg Instr.slli (rdOf_encI ..)) (rs1Of_encI ..)) (shamt6_encI ..)

theorem Encoding.srl (rd : RegNum) (rs1 : RegNum) (rs2 : RegNum) : Encoding.Statement (.srl rd rs1 rs2) := by
  intro xl h
  exact ⟨opcodeTable[3], List.getElem_mem _, row_hits (by cases xl <;> rfl) ((encR_masked ..).trans rfl),
    congr (congr (congrArg Instr.srl (rdOf_encR ..)) (rs1Of_encR ..)) (rs2Of_encR ..)⟩

theorem Encoding.srli (rd : RegNum) (rs1 : RegNum) (shamt : BitVec 6) : Encoding.Statement (.srli rd rs1 shamt) := by
  intro xl h
  cases xl with
  | rv32 =>
    have h5 : shamt.getLsbD 5 = false := by simpa [Instr.wellFormed, shamtOk] using h
    refine ⟨opcodeTable[4], List.getElem_mem _, row_hits rfl ((encI_shift_masked32 _ _ _ _ _ _ h5).trans rfl), ?_⟩
    exact congr (congr (congrArg Instr.srli (rdOf_encI ..)) (rs1Of_encI ..)) (shamt6_encI ..)
  | rv64 =>
    refine ⟨opcodeTable[5], List.getElem_mem _, row_hits rfl ((encI_shift_masked64 ..).trans rfl), ?_⟩
    exact congr (congr (congrArg Instr.srli (rdOf_encI ..)) (rs1Of_encI ..)) (shamt6_encI ..)

theorem Encoding.sra (rd : RegNum) (rs1 : RegNum) (rs2 : RegNum) : Encoding.Statement (.sra rd rs1 rs2) := by
  intro xl h
  exact ⟨opcodeTable[6], List.getElem_mem _, row_hits (by cases xl <;> rfl) ((encR_masked ..).trans rfl),
    congr (congr (congrArg Instr.sra (rdOf_encR ..)) (rs1Of_encR ..)) (rs2Of_encR ..)⟩

theorem Encoding.srai (rd : RegNum) (rs1 : RegNum) (shamt : BitVec 6) : Encoding.Statement (.srai rd rs1 shamt) := by
  intro xl h
  cases xl with
  | rv32 =>
    have h5 : shamt.getLsbD 5 = false := by simpa [Instr.wellFormed, shamtOk] using h
    refine ⟨opcodeTable[7], List.getElem_mem _, row_hits rfl ((encI_shift_masked32 _ _ _ _ _ _ h5).trans rfl), ?_⟩
    exact congr (congr (congrArg Instr.srai (rdOf_encI ..)) (rs1Of_encI ..)) (shamt6_encI ..)
  | rv64 =>
    refine ⟨opcodeTable[8], List.getElem_mem _, row_hits rfl ((encI_shift_masked64 ..).trans rfl), ?_⟩
    exact congr (congr (congrArg Instr.srai (rdOf_encI ..)) (rs1Of_encI ..)) (shamt6_encI ..)

theorem Encoding.sllw (rd : RegNum) (rs1 : RegNum) (rs2 : RegNum) : Encoding.Statement (.sllw rd rs1 rs2) := by
  intro xl h
  have hx : xl = .rv64 := by simpa [Instr.wellFormed] using h
  subst hx
  exact ⟨opcodeTable[9], List.getElem_mem _, row_hits rfl ((encR_masked ..).trans rfl),
    congr (congr (congrArg Instr.sllw (rdOf_encR ..)) (rs1Of_encR ..)) (rs2Of_encR ..)⟩

theorem Encoding.slliw (rd : RegNum) (rs1 : RegNum) (shamt : BitVec 5) : Encoding.Statement (.slliw rd rs1 shamt) := by
  intro xl h
  have hx : xl = .rv64 := by simpa [Instr.wellFormed] using h
  subst hx
  exact ⟨opcodeTable[10], List.getElem_mem _, row_hits rfl ((encR_masked ..).trans rfl),
    congr (congr (congrArg Instr.slliw (rdOf_encR ..)) (rs1Of_encR ..)) (rs2Of_encR ..)⟩

theorem Encoding.srlw (rd : RegNum) (rs1 : RegNum) (rs2 : RegNum) : Encoding.Statement (.srlw rd rs1 rs2) := by
  intro xl h
  have hx : xl = .rv64 := by simpa [Instr.wellFormed] using h
  subst hx
  exact ⟨opcodeTable[11], List.getElem_mem _, row_hits rfl ((encR_masked ..).trans rfl),
    congr (congr (congrArg Instr.srlw (rdOf_encR ..)) (rs1Of_encR ..)) (rs2Of_encR ..)⟩

theorem Encoding.srliw (rd : RegNum) (rs1 : RegNum) (shamt : BitVec 5) : Encoding.Statement (.srliw rd rs1 shamt) := by
  intro xl h
  have hx : xl = .rv64 := by simpa [Instr.wellFormed] using h
  subst hx
  exact ⟨opcodeTable[12], List.getElem_mem _, row_hits rfl ((encR_masked ..).trans rfl),
    congr (congr (congrArg Instr.srliw (rdOf_encR ..)) (rs1Of_encR ..)) (rs2Of_encR ..)⟩

theorem Encoding.sraw (rd : RegNum) (rs1 : RegNum) (rs2 : RegNum) : Encoding.Statement (.sraw rd rs1 rs2) := by
  intro xl h
  have hx : xl = .rv64 := by simpa [Instr.wellFormed] using h
  subst hx
  exact ⟨opcodeTable[13], List.getElem_mem _, row_hits rfl ((encR_masked ..).trans rfl),
    congr (congr (congrArg Instr.sraw (rdOf_encR ..)) (rs1Of_encR ..)) (rs2Of_encR ..)⟩

theorem Encoding.sraiw (rd : RegNum) (rs1 : RegNum) (shamt : BitVec 5) : Encoding.Statement (.sraiw rd rs1 shamt) := by
  intro xl h
  have hx : xl = .rv64 := by simpa [Instr.wellFormed] using h
  subst hx
  exact ⟨opcodeTable[14], List.getElem_mem _, row_hits rfl ((encR_masked ..).trans rfl),
    congr (congr (congrArg Instr.sraiw (rdOf_encR ..)) (rs1Of_encR ..)) (rs2Of_encR ..)⟩

theorem Encoding.add (rd : RegNum) (rs1 : RegNum) (rs2 : RegNum) : Encoding.Statement (.add rd rs1 rs2) := by
  intro xl h
  exact ⟨opcodeTable[15], List.getElem_mem _, row_hits (by cases xl <;> rfl) ((encR_masked ..).trans rfl),
    congr (congr (congrArg Instr.add (rdOf_encR ..)) (rs1Of_encR ..)) (rs2Of_encR ..)⟩

theorem Encoding.addi (rd : RegNum) (rs1 : RegNum) (imm : BitVec 12) : Encoding.Statement (.addi rd rs1 imm) := by
  intro xl h
  exact ⟨opcodeTable[16], List.getElem_mem _, row_hits (by cases xl <;> rfl) ((encI_masked ..).trans rfl),
    congr (congr (congrArg Instr.addi (rdOf_encI ..)) (rs1Of_encI ..)) (immI_encI ..)⟩

theorem Encoding.sub (rd : RegNum) (rs1 : RegNum) (rs2 : RegNum) : Encoding.Statement (.sub rd rs1 rs2) := by
  intro xl h
  exact ⟨opcodeTable[17], List.getElem_mem _, row_hits (by cases xl <;> rfl) ((encR_masked ..).trans rfl),
    congr (congr (congrArg Instr.sub (rdOf_encR ..)) (rs1Of_encR ..)) (rs2Of_encR ..)⟩

theorem Encoding.lui (rd : RegNum) (imm : BitVec 20) : Encoding.Statement (.lui rd imm) := by
  intro xl h
  exact ⟨opcodeTable[18], List.getElem_mem _, row_hits (by cases xl <;> rfl) ((encU_masked ..).trans rfl),
    congr (congrArg Instr.lui (rdOf_encU ..)) (immU_encU ..)⟩

theorem Encoding.auipc (rd : RegNum) (imm : BitVec 20) : Encoding.Statement (.auipc rd imm) := by
  intro xl h
  exact ⟨opcodeTable[19], List.getElem_mem _, row_hits (by cases xl <;> rfl) ((encU_masked ..).trans rfl),
    congr (congrArg Instr.auipc (rdOf_encU ..)) (immU_encU ..)⟩

theorem Encoding.addw (rd : RegNum) (rs1 : RegNum) (rs2 : RegNum) : Encoding.Statement (.addw rd rs1 rs2) := by
  intro xl h
  have hx : xl = .rv64 := by simpa [Instr.wellFormed] using h
  subst hx
  exact ⟨opcodeTable[20], List.getElem_mem _, row_hits rfl ((encR_masked ..).trans rfl),
    congr (congr (congrArg Instr.addw (rdOf_encR ..)) (rs1Of_encR ..)) (rs2Of_encR ..)⟩

theorem Encoding.addiw (rd : RegNum) (rs1 : RegNum) (imm : BitVec 12) : Encoding.Statement (.addiw rd rs1 imm) := by
  intro xl h
  have hx : xl = .rv64 := by simpa [Instr.wellFormed] using h
  subst hx
  exact ⟨opcodeTable[21], List.getElem_mem _, row_hits rfl ((encI_masked ..).trans rfl),
    congr (congr (congrArg Instr.addiw (rdOf_encI ..)) (rs1Of_encI ..)) (immI_encI ..)⟩

theorem Encoding.subw (rd : RegNum) (rs1 : RegNum) (rs2 : RegNum) : Encoding.Statement (.subw rd rs1 rs2) := by
  intro xl h
  have hx : xl = .rv64 := by simpa [Instr.wellFormed] using h
  subst hx
  exact ⟨opcodeTable[22], List.getElem_mem _, row_hits rfl ((encR_masked ..).trans rfl),
    congr (congr (congrArg Instr.subw (rdOf_encR ..)) (rs1Of_encR ..)) (rs2Of_encR ..)⟩

theorem Encoding.xor (rd : RegNum) (rs1 : RegNum) (rs2 : RegNum) : Encoding.Statement (.xor rd rs1 rs2) := by
  intro xl h
  exact ⟨opcodeTable[23], List.getElem_mem _, row_hits (by cases xl <;> rfl) ((encR_masked ..).trans rfl),
    congr (congr (congrArg Instr.xor (rdOf_encR ..)) (rs1Of_encR ..)) (rs2Of_encR ..)⟩

theorem Encoding.xori (rd : RegNum) (rs1 : RegNum) (imm : BitVec 12) : Encoding.Statement (.xori rd rs1 imm) := by
  intro xl h
  exact ⟨opcodeTable[24], List.getElem_mem _, row_hits (by cases xl <;> rfl) ((encI_masked ..).trans rfl),
    congr (congr (congrArg Instr.xori (rdOf_encI ..)) (rs1Of_encI ..)) (immI_encI ..)⟩

theorem Encoding.or (rd : RegNum) (rs1 : RegNum) (rs2 : RegNum) : Encoding.Statement (.or rd rs1 rs2) := by
  intro xl h
  exact ⟨opcodeTable[25], List.getElem_mem _, row_hits (by cases xl <;> rfl) ((encR_masked ..).trans rfl),
    congr (congr (congrArg Instr.or (rdOf_encR ..)) (rs1Of_encR ..)) (rs2Of_encR ..)⟩

theorem Encoding.ori (rd : RegNum) (rs1 : RegNum) (imm : BitVec 12) : Encoding.Statement (.ori rd rs1 imm) := by
  intro xl h
  exact ⟨opcodeTable[26], List.getElem_mem _, row_hits (by cases xl <;> rfl) ((encI_masked ..).trans rfl),
    congr (congr (congrArg Instr.ori (rdOf_encI ..)) (rs1Of_encI ..)) (immI_encI ..)⟩

theorem Encoding.and (rd : RegNum) (rs1 : RegNum) (rs2 : RegNum) : Encoding.Statement (.and rd rs1 rs2) := by
  intro xl h
  exact ⟨opcodeTable[27], List.getElem_mem _, row_hits (by cases xl <;> rfl) ((encR_masked ..).trans rfl),
    congr (congr (congrArg Instr.and (rdOf_encR ..)) (rs1Of_encR ..)) (rs2Of_encR ..)⟩

theorem Encoding.andi (rd : RegNum) (rs1 : RegNum) (imm : BitVec 12) : Encoding.Statement (.andi rd rs1 imm) := by
  intro xl h
  exact ⟨opcodeTable[28], List.getElem_mem _, row_hits (by cases xl <;> rfl) ((encI_masked ..).trans rfl),
    congr (congr (congrArg Instr.andi (rdOf_encI ..)) (rs1Of_encI ..)) (immI_encI ..)⟩

theorem Encoding.slt (rd : RegNum) (rs1 : RegNum) (rs2 : RegNum) : Encoding.Statement (.slt rd rs1 rs2) := by
  intro xl h
  exact ⟨opcodeTable[29], List.getElem_mem _, row_hits (by cases xl <;> rfl) ((encR_masked ..).trans rfl),
    congr (congr (congrArg Instr.slt (rdOf_encR ..)) (rs1Of_encR ..)) (rs2Of_encR ..)⟩

theorem Encoding.slti (rd : RegNum) (rs1 : RegNum) (imm : BitVec 12) : Encoding.Statement (.slti rd rs1 imm) := by
  intro xl h
  exact ⟨opcodeTable[30], List.getElem_mem _, row_hits (by cases xl <;> rfl) ((encI_masked ..).trans rfl),
    congr (congr (congrArg Instr.slti (rdOf_encI ..)) (rs1Of_encI ..)) (immI_encI ..)⟩

theorem Encoding.sltu (rd : RegNum) (rs1 : RegNum) (rs2 : RegNum) : Encoding.Statement (.sltu rd rs1 rs2) := by
  intro xl h
  exact ⟨opcodeTable[31], List.getElem_mem _, row_hits (by cases xl <;> rfl) ((encR_masked ..).trans rfl),
    congr (congr (congrArg Instr.sltu (rdOf_encR ..)) (rs1Of_encR ..)) (rs2Of_encR ..)⟩

theorem Encoding.sltiu (rd : RegNum) (rs1 : RegNum) (imm : BitVec 12) : Encoding.Statement (.sltiu rd rs1 imm) := by
  intro xl h
  exact ⟨opcodeTable[32], List.getElem_mem _, row_hits (by cases xl <;> rfl) ((encI_masked ..).trans rfl),
    congr (congr (congrArg Instr.sltiu (rdOf_encI ..)) (rs1Of_encI ..)) (immI_encI ..)⟩

theorem Encoding.beq (rs1 : RegNum) (rs2 : RegNum) (off : BitVec 13) : Encoding.Statement (.beq rs1 rs2 off) := by
  intro xl h
  exact ⟨opcodeTable[33], List.getElem_mem _, row_hits (by cases xl <;> rfl) ((encB_masked ..).trans rfl),
    congr (congr (congrArg Instr.beq (rs1Of_encB ..)) (rs2Of_encB ..)) (offB_encB _ _ _ _ _ (by simpa [Instr.wellFormed] using h))⟩

theorem Encoding.bne (rs1 : RegNum) (rs2 : RegNum) (off : BitVec 13) : Encoding.Statement (.bne rs1 rs2 off) := by
  intro xl h
  exact ⟨opcodeTable[34], List.getElem_mem _, row_hits (by cases xl <;> rfl) ((encB_masked ..).trans rfl),
    congr (congr (congrArg Instr.bne (rs1Of_encB ..)) (rs2Of_encB ..)) (offB_encB _ _ _ _ _ (by simpa [Instr.wellFormed] using h))⟩

theorem Encoding.blt (rs1 : RegNum) (rs2 : RegNum) (off : BitVec 13) : Encoding.Statement (.blt rs1 rs2 off) := by
  intro xl h
  exact ⟨opcodeTable[35], List.getElem_mem _, row_hits (by cases xl <;> rfl) ((encB_masked ..).trans rfl),
    congr (congr (congrArg Instr.blt (rs1Of_encB ..)) (rs2Of_encB ..)) (offB_encB _ _ _ _ _ (by simpa [Instr.wellFormed] using h))⟩

theorem Encoding.bge (rs1 : RegNum) (rs2 : RegNum) (off : BitVec 13) : Encoding.Statement (.bge rs1 rs2 off) := by
  intro xl h
  exact ⟨opcodeTable[36], List.getElem_mem _, row_hits (by cases xl <;> rfl) ((encB_masked ..).trans rfl),
    congr (congr (congrArg Instr.bge (rs1Of_encB ..)) (rs2Of_encB ..)) (offB_encB _ _ _ _ _ (by simpa [Instr.wellFormed] using h))⟩

theorem Encoding.bltu (rs1 : RegNum) (rs2 : RegNum) (off : BitVec 13) : Encoding.Statement (.bltu rs1 rs2 off) := by
  intro xl h
  exact ⟨opcodeTable[37], List.getElem_mem _, row_hits (by cases xl <;> rfl) ((encB_masked ..).trans rfl),
    congr (congr (congrArg Instr.bltu (rs1Of_encB ..)) (rs2Of_encB ..)) (offB_encB _ _ _ _ _ (by simpa [Instr.wellFormed] using h))⟩

theorem Encoding.bgeu (rs1 : RegNum) (rs2 : RegNum) (off : BitVec 13) : Encoding.Statement (.bgeu rs1 rs2 off) := by
  intro xl h
  exact ⟨opcodeTable[38], List.getElem_mem _, row_hits (by cases xl <;> rfl) ((encB_masked ..).trans rfl),
    congr (congr (congrArg Instr.bgeu (rs1Of_encB ..)) (rs2Of_encB ..)) (offB_encB _ _ _ _ _ (by simpa [Instr.wellFormed] using h))⟩

theorem Encoding.jal (rd : RegNum) (off : BitVec 21) : Encoding.Statement (.jal rd off) := by
  intro xl h
  exact ⟨opcodeTable[39], List.getElem_mem _, row_hits (by cases xl <;> rfl) ((encJ_masked ..).trans rfl),
    congr (congrArg Instr.jal (rdOf_encJ ..)) (offJ_encJ _ _ _ (by simpa [Instr.wellFormed] using h))⟩

theorem Encoding.jalr (rd : RegNum) (rs1 : RegNum) (imm : BitVec 12) : Encoding.Statement (.jalr rd rs1 imm) := by
  intro xl h
  exact ⟨opcodeTable[40], List.getElem_mem _, row_hits (by cases xl <;> rfl) ((encI_masked ..).trans rfl),
    congr (congr (congrArg Instr.jalr (rdOf_encI ..)) (rs1Of_encI ..)) (immI_encI ..)⟩

theorem Encoding.fence (fm : BitVec 4) (pred : BitVec 4) (succ : BitVec 4) (rs1 : RegNum) (rd : RegNum) : Encoding.Statement (.fence fm pred succ rs1 rd) := by
  intro xl h
  exact ⟨opcodeTable[41], List.getElem_mem _, row_hits (by cases xl <;> rfl) ((encI_masked ..).trans rfl),
    congr (congr (congr (congr (congrArg Instr.fence (fmOf_encI ..)) (predOf_encI ..)) (succOf_encI ..)) (rs1Of_encI ..)) (rdOf_encI ..)⟩

theorem Encoding.fenceI (imm : BitVec 12) (rs1 : RegNum) (rd : RegNum) : Encoding.Statement (.fenceI imm rs1 rd) := by
  intro xl h
  exact ⟨opcodeTable[42], List.getElem_mem _, row_hits (by cases xl <;> rfl) ((encI_masked ..).trans rfl),
    congr (congr (congrArg Instr.fenceI (immI_encI ..)) (rs1Of_encI ..)) (rdOf_encI ..)⟩

theorem Encoding.ecall : Encoding.Statement .ecall := by
  intro xl h
  exact ⟨opcodeTable[43], List.getElem_mem _, row_hits (by cases xl <;> rfl) rfl,
    rfl⟩

theorem Encoding.ebreak : Encoding.Statement .ebreak := by
  intro xl h
  exact ⟨opcodeTable[44], List.getElem_mem _, row_hits (by cases xl <;> rfl) rfl,
    rfl⟩

theorem Encoding.csrrw (rd : RegNum) (csr : BitVec 12) (rs1 : RegNum) : Encoding.Statement (.csrrw rd csr rs1) := by
  intro xl h
  exact ⟨opcodeTable[45], List.getElem_mem _, row_hits (by cases xl <;> rfl) ((encI_masked ..).trans rfl),
    congr (congr (congrArg Instr.csrrw (rdOf_encI ..)) (immI_encI ..)) (rs1Of_encI ..)⟩

theorem Encoding.csrrs (rd : RegNum) (csr : BitVec 12) (rs1 : RegNum) : Encoding.Statement (.csrrs rd csr rs1) := by
  intro xl h
  exact ⟨opcodeTable[46], List.getElem_mem _, row_hits (by cases xl <;> rfl) ((encI_masked ..).trans rfl),
    congr (congr (congrArg Instr.csrrs (rdOf_encI ..)) (immI_encI ..)) (rs1Of_encI ..)⟩

theorem Encoding.csrrc (rd : RegNum) (csr : BitVec 12) (rs1 : RegNum) : Encoding.Statement (.csrrc rd csr rs1) := by
  intro xl h
  exact ⟨opcodeTable[47], List.getElem_mem _, row_hits (by cases xl <;> rfl) ((encI_masked ..).trans rfl),
    congr (congr (congrArg Instr.csrrc (rdOf_encI ..)) (immI_encI ..)) (rs1Of_encI ..)⟩

theorem Encoding.csrrwi (rd : RegNum) (csr : BitVec 12) (uimm : BitVec 5) : Encoding.Statement (.csrrwi rd csr uimm) := by
  intro xl h
  exact ⟨opcodeTable[48], List.getElem_mem _, row_hits (by cases xl <;> rfl) ((encI_masked ..).trans rfl),
    congr (congr (congrArg Instr.csrrwi (rdOf_encI ..)) (immI_encI ..)) (rs1Of_encI ..)⟩

theorem Encoding.csrrsi (rd : RegNum) (csr : BitVec 12) (uimm : BitVec 5) : Encoding.Statement (.csrrsi rd csr uimm) := by
  intro xl h
  exact ⟨opcodeTable[49], List.getElem_mem _, row_hits (by cases xl <;> rfl) ((encI_masked ..).trans rfl),
    congr (congr (congrArg Instr.csrrsi (rdOf_encI ..)) (immI_encI ..)) (rs1Of_encI ..)⟩

theorem Encoding.csrrci (rd : RegNum) (csr : BitVec 12) (uimm : BitVec 5) : Encoding.Statement (.csrrci rd csr uimm) := by
  intro xl h
  exact ⟨opcodeTable[50], List.getElem_mem _, row_hits (by cases xl <;> rfl) ((encI_masked ..).trans rfl),
    congr (congr (congrArg Instr.csrrci (rdOf_encI ..)) (immI_encI ..)) (rs1Of_encI ..)⟩

theorem Encoding.lb (rd : RegNum) (rs1 : RegNum) (imm : BitVec 12) : Encoding.Statement (.lb rd rs1 imm) := by
  intro xl h
  exact ⟨opcodeTable[51], List.getElem_mem _, row_hits (by cases xl <;> rfl) ((encI_masked ..).trans rfl),
    congr (congr (congrArg Instr.lb (rdOf_encI ..)) (rs1Of_encI ..)) (immI_encI ..)⟩

theorem Encoding.lh (rd : RegNum) (rs1 : RegNum) (imm : BitVec 12) : Encoding.Statement (.lh rd rs1 imm) := by
  intro xl h
  exact ⟨opcodeTable[52], List.getElem_mem _, row_hits (by cases xl <;> rfl) ((encI_masked ..).trans rfl),
    congr (congr (congrArg Instr.lh (rdOf_encI ..)) (rs1Of_encI ..)) (immI_encI ..)⟩

theorem Encoding.lw (rd : RegNum) (rs1 : RegNum) (imm : BitVec 12) : Encoding.Statement (.lw rd rs1 imm) := by
  intro xl h
  exact ⟨opcodeTable[53], List.getElem_mem _, row_hits (by cases xl <;> rfl) ((encI_masked ..).trans rfl),
    congr (congr (congrArg Instr.lw (rdOf_encI ..)) (rs1Of_encI ..)) (immI_encI ..)⟩

theorem Encoding.lbu (rd : RegNum) (rs1 : RegNum) (imm : BitVec 12) : Encoding.Statement (.lbu rd rs1 imm) := by
  intro xl h
  exact ⟨opcodeTable[54], List.getElem_mem _, row_hits (by cases xl <;> rfl) ((encI_masked ..).trans rfl),
    congr (congr (congrArg Instr.lbu (rdOf_encI ..)) (rs1Of_encI ..)) (immI_encI ..)⟩

theorem Encoding.lhu (rd : RegNum) (rs1 : RegNum) (imm : BitVec 12) : Encoding.Statement (.lhu rd rs1 imm) := by
  intro xl h
  exact ⟨opcodeTable[55], List.getElem_mem _, row_hits (by cases xl <;> rfl) ((encI_masked ..).trans rfl),
    congr (congr (congrArg Instr.lhu (rdOf_encI ..)) (rs1Of_encI ..)) (immI_encI ..)⟩

theorem Encoding.lwu (rd : RegNum) (rs1 : RegNum) (imm : BitVec 12) : Encoding.Statement (.lwu rd rs1 imm) := by
  intro xl h
  have hx : xl = .rv64 := by simpa [Instr.wellFormed] using h
  subst hx
  exact ⟨opcodeTable[56], List.getElem_mem _, row_hits rfl ((encI_masked ..).trans rfl),
    congr (congr (congrArg Instr.lwu (rdOf_encI ..)) (rs1Of_encI ..)) (immI_encI ..)⟩

theorem Encoding.ld (rd : RegNum) (rs1 : RegNum) (imm : BitVec 12) : Encoding.Statement (.ld rd rs1 imm) := by
  intro xl h
  have hx : xl = .rv64 := by simpa [Instr.wellFormed] using h
  subst hx
  exact ⟨opcodeTable[57], List.getElem_mem _, row_hits rfl ((encI_masked ..).trans rfl),
    congr (congr (congrArg Instr.ld (rdOf_encI ..)) (rs1Of_encI ..)) (immI_encI ..)⟩

theorem Encoding.sb (rs1 : RegNum) (rs2 : RegNum) (imm : BitVec 12) : Encoding.Statement (.sb rs1 rs2 imm) := by
  intro xl h
  exact ⟨opcodeTable[58], List.getElem_mem _, row_hits (by cases xl <;> rfl) ((encS_masked ..).trans rfl),
    congr (congr (congrArg Instr.sb (rs1Of_encS ..)) (rs2Of_encS ..)) (immS_encS ..)⟩

theorem Encoding.sh (rs1 : RegNum) (rs2 : RegNum) (imm : BitVec 12) : Encoding.Statement (.sh rs1 rs2 imm) := by
  intro xl h
  exact ⟨opcodeTable[59], List.getElem_mem _, row_hits (by cases xl <;> rfl) ((encS_masked ..).trans rfl),
    congr (congr (congrArg Instr.sh (rs1Of_encS ..)) (rs2Of_encS ..)) (immS_encS ..)⟩

theorem Encoding.sw (rs1 : RegNum) (rs2 : RegNum) (imm : BitVec 12) : Encoding.Statement (.sw rs1 rs2 imm) := by
  intro xl h
  exact ⟨opcodeTable[60], List.getElem_mem _, row_hits (by cases xl <;> rfl) ((encS_masked ..).trans rfl),
    congr (congr (congrArg Instr.sw (rs1Of_encS ..)) (rs2Of_encS ..)) (immS_encS ..)⟩

theorem Encoding.sd (rs1 : RegNum) (rs2 : RegNum) (imm : BitVec 12) : Encoding.Statement (.sd rs1 rs2 imm) := by
  intro xl h
  have hx : xl = .rv64 := by simpa [Instr.wellFormed] using h
  subst hx
  exact ⟨opcodeTable[61], List.getElem_mem _, row_hits rfl ((encS_masked ..).trans rfl),
    congr (congr (congrArg Instr.sd (rs1Of_encS ..)) (rs2Of_encS ..)) (immS_encS ..)⟩

theorem Encoding.mret : Encoding.Statement .mret := by
  intro xl h
  exact ⟨opcodeTable[62], List.getElem_mem _, row_hits (by cases xl <;> rfl) rfl,
    rfl⟩

theorem Encoding.sret : Encoding.Statement .sret := by
  intro xl h
  exact ⟨opcodeTable[63], List.getElem_mem _, row_hits (by cases xl <;> rfl) rfl,
    rfl⟩

theorem Encoding.wfi : Encoding.Statement .wfi := by
  intro xl h
  exact ⟨opcodeTable[64], List.getElem_mem _, row_hits (by cases xl <;> rfl) rfl,
    rfl⟩

theorem Encoding.sfenceVma (rs1 : RegNum) (rs2 : RegNum) : Encoding.Statement (.sfenceVma rs1 rs2) := by
  intro xl h
  exact ⟨opcodeTable[65], List.getElem_mem _, row_hits (by cases xl <;> rfl) ((encR_masked_rd ..).trans rfl),
    congr (congrArg Instr.sfenceVma (rs1Of_encR ..)) (rs2Of_encR ..)⟩

end Sys2Proof.Laws
end

