-- ==== Sys2Proof/Tests/Slice0.lean ====
section
/-! SUPPORT. Tests: well-formedness, decoding, one step of every instruction, and the states that meet the hypotheses of
the statements. Expected values are those of the spec: the examples of the rules and 95_test_vectors.md. -/

namespace Sys2Proof.Tests

open Sys2Proof.Machine

/-! ## Well-formedness: an ill-formed term for each check (30_encoding.md R113, R120, R125) -/

theorem test_wellFormed_rv64Only : (Instr.ld 1 2 0).wellFormed .rv32 = false ∧ (Instr.ld 1 2 0).wellFormed .rv64 = true := by
  decide

theorem test_wellFormed_shamt :
    (Instr.slli 1 2 32).wellFormed .rv32 = false ∧ (Instr.slli 1 2 31).wellFormed .rv32 = true ∧
      (Instr.slli 1 2 63).wellFormed .rv64 = true := by decide

theorem test_wellFormed_branch_offset :
    (Instr.beq 1 2 3).wellFormed .rv64 = false ∧ (Instr.beq 1 2 2).wellFormed .rv64 = true := by decide

theorem test_wellFormed_jal_offset :
    (Instr.jal 1 5).wellFormed .rv32 = false ∧ (Instr.jal 1 4).wellFormed .rv32 = true := by decide

/-! ## Decoding: the words of the rules' examples, one for each instruction -/

theorem test_decode_sll : decode .rv64 0x002091B3 = .ok (.sll 3 1 2) := by decide
theorem test_decode_slli : decode .rv64 0x00409113 = .ok (.slli 2 1 4) := by decide
theorem test_decode_srl : decode .rv64 0x0020D1B3 = .ok (.srl 3 1 2) := by decide
theorem test_decode_srli : decode .rv64 0x01C0D113 = .ok (.srli 2 1 28) := by decide
theorem test_decode_sra : decode .rv64 0x4020D1B3 = .ok (.sra 3 1 2) := by decide
theorem test_decode_srai : decode .rv64 0x4040D113 = .ok (.srai 2 1 4) := by decide
theorem test_decode_sllw : decode .rv64 0x002091BB = .ok (.sllw 3 1 2) := by decide
theorem test_decode_slliw : decode .rv64 0x0010911B = .ok (.slliw 2 1 1) := by decide
theorem test_decode_srlw : decode .rv64 0x0020D1BB = .ok (.srlw 3 1 2) := by decide
theorem test_decode_srliw : decode .rv64 0x0000D11B = .ok (.srliw 2 1 0) := by decide
theorem test_decode_sraw : decode .rv64 0x4020D1BB = .ok (.sraw 3 1 2) := by decide
theorem test_decode_sraiw : decode .rv64 0x41C0D11B = .ok (.sraiw 2 1 28) := by decide
theorem test_decode_add : decode .rv64 0x002081B3 = .ok (.add 3 1 2) := by decide
theorem test_decode_addi : decode .rv64 0xFFF08113 = .ok (.addi 2 1 0xFFF) := by decide
theorem test_decode_sub : decode .rv64 0x402081B3 = .ok (.sub 3 1 2) := by decide
theorem test_decode_lui : decode .rv64 0x123452B7 = .ok (.lui 5 0x12345) := by decide
theorem test_decode_auipc : decode .rv64 0xFFFFF297 = .ok (.auipc 5 0xFFFFF) := by decide
theorem test_decode_addw : decode .rv64 0x002081BB = .ok (.addw 3 1 2) := by decide
theorem test_decode_addiw : decode .rv64 0x0000811B = .ok (.addiw 2 1 0) := by decide
theorem test_decode_subw : decode .rv64 0x402081BB = .ok (.subw 3 1 2) := by decide
theorem test_decode_xor : decode .rv64 0x0020C1B3 = .ok (.xor 3 1 2) := by decide
theorem test_decode_xori : decode .rv64 0xFFF0C113 = .ok (.xori 2 1 0xFFF) := by decide
theorem test_decode_or : decode .rv64 0x0020E1B3 = .ok (.or 3 1 2) := by decide
theorem test_decode_ori : decode .rv64 0x8000E113 = .ok (.ori 2 1 0x800) := by decide
theorem test_decode_and : decode .rv64 0x0020F1B3 = .ok (.and 3 1 2) := by decide
theorem test_decode_andi : decode .rv64 0xFF00F113 = .ok (.andi 2 1 0xFF0) := by decide
theorem test_decode_slt : decode .rv64 0x0020A1B3 = .ok (.slt 3 1 2) := by decide
theorem test_decode_slti : decode .rv64 0xFFF0A113 = .ok (.slti 2 1 0xFFF) := by decide
theorem test_decode_sltu : decode .rv64 0x002031B3 = .ok (.sltu 3 0 2) := by decide
theorem test_decode_sltiu : decode .rv64 0xFFF0B113 = .ok (.sltiu 2 1 0xFFF) := by decide
theorem test_decode_beq : decode .rv64 0x00208863 = .ok (.beq 1 2 16) := by decide
theorem test_decode_bne : decode .rv64 0xFE209CE3 = .ok (.bne 1 2 0x1FF8) := by decide
theorem test_decode_blt : decode .rv64 0x0020C463 = .ok (.blt 1 2 8) := by decide
theorem test_decode_bge : decode .rv64 0x0020D463 = .ok (.bge 1 2 8) := by decide
theorem test_decode_bltu : decode .rv64 0x0020E463 = .ok (.bltu 1 2 8) := by decide
theorem test_decode_bgeu : decode .rv64 0x0020F463 = .ok (.bgeu 1 2 8) := by decide
theorem test_decode_jal : decode .rv64 0xFFDFF06F = .ok (.jal 0 0x1FFFFC) := by decide
theorem test_decode_jalr : decode .rv64 0x003280E7 = .ok (.jalr 1 5 3) := by decide
theorem test_decode_fence : decode .rv64 0x0330000F = .ok (.fence 0 3 3 0 0) := by decide
theorem test_decode_fenceI : decode .rv64 0x0000100F = .ok (.fenceI 0 0 0) := by decide
theorem test_decode_ecall : decode .rv64 0x00000073 = .ok (.ecall) := by decide
theorem test_decode_ebreak : decode .rv64 0x00100073 = .ok (.ebreak) := by decide
theorem test_decode_csrrw : decode .rv64 0x340312F3 = .ok (.csrrw 5 0x340 6) := by decide
theorem test_decode_csrrs : decode .rv64 0xF14022F3 = .ok (.csrrs 5 0xF14 0) := by decide
theorem test_decode_csrrc : decode .rv64 0x300332F3 = .ok (.csrrc 5 0x300 6) := by decide
theorem test_decode_csrrwi : decode .rv64 0x340FD2F3 = .ok (.csrrwi 5 0x340 31) := by decide
theorem test_decode_csrrsi : decode .rv64 0x304562F3 = .ok (.csrrsi 5 0x304 10) := by decide
theorem test_decode_csrrci : decode .rv64 0x30047073 = .ok (.csrrci 0 0x300 8) := by decide
theorem test_decode_lb : decode .rv64 0x00430283 = .ok (.lb 5 6 4) := by decide
theorem test_decode_lh : decode .rv64 0xFFE31283 = .ok (.lh 5 6 0xFFE) := by decide
theorem test_decode_lw : decode .rv64 0x80032283 = .ok (.lw 5 6 0x800) := by decide
theorem test_decode_lbu : decode .rv64 0x00034283 = .ok (.lbu 5 6 0) := by decide
theorem test_decode_lhu : decode .rv64 0x00235283 = .ok (.lhu 5 6 2) := by decide
theorem test_decode_lwu : decode .rv64 0x00036283 = .ok (.lwu 5 6 0) := by decide
theorem test_decode_ld : decode .rv64 0x00433283 = .ok (.ld 5 6 4) := by decide
theorem test_decode_sb : decode .rv64 0x00730023 = .ok (.sb 6 7 0) := by decide
theorem test_decode_sh : decode .rv64 0x007310A3 = .ok (.sh 6 7 1) := by decide
theorem test_decode_sw : decode .rv64 0xFE732E23 = .ok (.sw 6 7 0xFFC) := by decide
theorem test_decode_sd : decode .rv64 0x00733223 = .ok (.sd 6 7 4) := by decide
theorem test_decode_mret : decode .rv64 0x30200073 = .ok (.mret) := by decide
theorem test_decode_sret : decode .rv64 0x10200073 = .ok (.sret) := by decide
theorem test_decode_wfi : decode .rv64 0x10500073 = .ok (.wfi) := by decide
theorem test_decode_sfenceVma : decode .rv64 0x12628073 = .ok (.sfenceVma 5 6) := by decide

/-! One word a family, written out bit by bit from the format figure (30_encoding.md R111). -/

/-- Format R, SUB x3,x1,x2: funct7, rs2, rs1, funct3, rd, opcode. -/
theorem test_bits_R : decode .rv32 (0b0100000#7 ++ 2#5 ++ 1#5 ++ 0b000#3 ++ 3#5 ++ 0b0110011#7) = .ok (.sub 3 1 2) := by
  decide

/-- Format I, a shift: SRAI x2,x1,4. -/
theorem test_bits_shift : decode .rv64 (0b010000#6 ++ 4#6 ++ 1#5 ++ 0b101#3 ++ 2#5 ++ 0b0010011#7) = .ok (.srai 2 1 4) := by
  decide

/-- Format I, a logical immediate: ANDI x2,x1,-16. -/
theorem test_bits_I : decode .rv32 (0xFF0#12 ++ 1#5 ++ 0b111#3 ++ 2#5 ++ 0b0010011#7) = .ok (.andi 2 1 0xFF0) := by decide

/-- Format S, SW x6,x7,-4: imm[11:5], rs2, rs1, funct3, imm[4:0], opcode. -/
theorem test_bits_S :
    decode .rv32 (0b1111111#7 ++ 7#5 ++ 6#5 ++ 0b010#3 ++ 0b11100#5 ++ 0b0100011#7) = .ok (.sw 6 7 0xFFC) := by decide

/-- Format B, BNE x1,x2,-8: imm[12], imm[10:5], rs2, rs1, funct3, imm[4:1], imm[11], opcode. -/
theorem test_bits_B :
    decode .rv32 (1#1 ++ 0b111111#6 ++ 2#5 ++ 1#5 ++ 0b001#3 ++ 0b1100#4 ++ 1#1 ++ 0b1100011#7) =
      .ok (.bne 1 2 0x1FF8) := by decide

/-- Format U, LUI x5,0x12345. -/
theorem test_bits_U : decode .rv64 (0x12345#20 ++ 5#5 ++ 0b0110111#7) = .ok (.lui 5 0x12345) := by decide

/-- Format J, JAL x1,2048: imm[20], imm[10:1], imm[11], imm[19:12], rd, opcode; 2048 sets imm[11] alone. -/
theorem test_bits_J :
    decode .rv32 (0#1 ++ 0#10 ++ 1#1 ++ 0#8 ++ 1#5 ++ 0b1101111#7) = .ok (.jal 1 2048) := by decide

/-- A CSR instruction: CSRRSI x5,0x304,10. -/
theorem test_bits_csr : decode .rv32 (0x304#12 ++ 10#5 ++ 0b110#3 ++ 5#5 ++ 0b1110011#7) = .ok (.csrrsi 5 0x304 10) := by
  decide

/-- FENCE iorw,iorw: fm, pred, succ, rs1, funct3, rd, opcode. -/
theorem test_bits_fence :
    decode .rv32 (0#4 ++ 0b1111#4 ++ 0b1111#4 ++ 0#5 ++ 0b000#3 ++ 0#5 ++ 0b0001111#7) = .ok (.fence 0 15 15 0 0) := by
  decide

/-- SRET: funct7, rs2 = 2, and zeros around the opcode SYSTEM. -/
theorem test_bits_privileged :
    decode .rv64 (0b0001000#7 ++ 2#5 ++ 0#5 ++ 0b000#3 ++ 0#5 ++ 0b1110011#7) = .ok .sret := by decide

theorem test_decode_zero_word : decode .rv64 0x00000000 = .error .compressed := by decide

theorem test_decode_ones_word : decode .rv64 0xFFFFFFFF = .error .longEncoding := by decide

theorem test_decode_rv64_word_on_rv32 : decode .rv32 0x00033283 = .error .rv64Only := by decide

theorem test_decode_muldiv_word : decode .rv64 0x02208133 = .error .noRow := by decide

theorem test_decode_few_bytes : decodeBytes .rv32 [0x13, 0x00, 0x00] = .error .truncated := by decide

/-! ## One step of every instruction (95_test_vectors.md, part 2) -/

/-- The state of 95_test_vectors.md: M-mode, `mtvec` = 0x100 (both trap vectors count as written), eight bytes at 0x2000,
the word at 0x1000, one step's quiet draw, and the given registers. -/
def loaded (xl : Xlen) (w : Nat) (regs : List (RegNum × Word)) : State :=
  let s := State.resetFor { Config.platform with xlen := xl } (writeBytes [] 0x2000 8 0xF7665544B3A29180)
  let s := { s with mtvec := 0x100, mtvecWritten := true, stvecWritten := true, script := [quietDraw] }.withFetchWord 32 w
  regs.foldl (fun t p => t.setX p.1 p.2) s

/-- The answer is a next state of which `p` holds. -/
def answers (r : Result) (p : State → Bool) : Bool :=
  match r with
  | .next t => p t
  | .fault _ => false
  | .refused _ => false

theorem test_sll :
    answers (step (loaded .rv32 0x002091B3 [(1, 0x80000001), (2, 0x00000021)]))
      (fun t => t.x 3 == 0x00000002 && t.pc == 0x1004) = true := by decide

theorem test_slli :
    answers (step (loaded .rv32 0x01F09193 [(1, 0x00000003)]))
      (fun t => t.x 3 == 0x80000000 && t.pc == 0x1004) = true := by decide

theorem test_illegal_1 :
    answers (step (loaded .rv32 0x02009193 [(1, 0x00000003)]))
      (fun t => t.mcause == 2 && t.mtval == 0x2009193 && t.pc == 0x100 && t.mepc == 0x1000 && t.minstret == 0) =
        true := by decide

theorem test_srl :
    answers (step (loaded .rv32 0x0020D1B3 [(1, 0x80000000), (2, 0xFFFFFFE4)]))
      (fun t => t.x 3 == 0x08000000 && t.pc == 0x1004) = true := by decide

theorem test_srli :
    answers (step (loaded .rv32 0x0000D193 [(1, 0xDEADBEEF)]))
      (fun t => t.x 3 == 0xDEADBEEF && t.pc == 0x1004) = true := by decide

theorem test_sra :
    answers (step (loaded .rv32 0x4020D1B3 [(1, 0x80000000), (2, 0x0000001F)]))
      (fun t => t.x 3 == 0xFFFFFFFF && t.pc == 0x1004) = true := by decide

theorem test_srai :
    answers (step (loaded .rv32 0x4040D193 [(1, 0x7FFFFFFF)]))
      (fun t => t.x 3 == 0x07FFFFFF && t.pc == 0x1004) = true := by decide

theorem test_sllw :
    answers (step (loaded .rv64 0x002091BB [(1, 0x0000000100000001), (2, 0x000000000000001F)]))
      (fun t => t.x 3 == 0xFFFFFFFF80000000 && t.pc == 0x1004) = true := by decide

theorem test_srlw :
    answers (step (loaded .rv64 0x0020D1BB [(1, 0xFFFFFFFF80000000), (2, 0x0000000000000000)]))
      (fun t => t.x 3 == 0xFFFFFFFF80000000 && t.pc == 0x1004) = true := by decide

theorem test_srliw :
    answers (step (loaded .rv64 0x0010D19B [(1, 0xFFFFFFFF80000000)]))
      (fun t => t.x 3 == 0x0000000040000000 && t.pc == 0x1004) = true := by decide

theorem test_sraw :
    answers (step (loaded .rv64 0x4020D1BB [(1, 0x0000000080000000), (2, 0x0000000000000004)]))
      (fun t => t.x 3 == 0xFFFFFFFFF8000000 && t.pc == 0x1004) = true := by decide

theorem test_sraiw :
    answers (step (loaded .rv64 0x41F0D19B [(1, 0x123456787FFFFFFF)]))
      (fun t => t.x 3 == 0x0000000000000000 && t.pc == 0x1004) = true := by decide

theorem test_slliw :
    answers (step (loaded .rv64 0x0010919B [(1, 0x0000000040000000)]))
      (fun t => t.x 3 == 0xFFFFFFFF80000000 && t.pc == 0x1004) = true := by decide

theorem test_illegal_2 :
    answers (step (loaded .rv64 0x0200919B [(1, 0x0000000000000001)]))
      (fun t => t.mcause == 2 && t.mtval == 0x200919B && t.pc == 0x100 && t.mepc == 0x1000 && t.minstret == 0) =
        true := by decide

theorem test_add :
    answers (step (loaded .rv32 0x002081B3 [(1, 0x7FFFFFFF), (2, 0x00000001)]))
      (fun t => t.x 3 == 0x80000000 && t.pc == 0x1004) = true := by decide

theorem test_addi :
    answers (step (loaded .rv32 0x80008193 [(1, 0x00000000)]))
      (fun t => t.x 3 == 0xFFFFF800 && t.pc == 0x1004) = true := by decide

theorem test_sub :
    answers (step (loaded .rv32 0x402081B3 [(1, 0x00000000), (2, 0x00000001)]))
      (fun t => t.x 3 == 0xFFFFFFFF && t.pc == 0x1004) = true := by decide

theorem test_lui :
    answers (step (loaded .rv32 0xFFFFF1B7 []))
      (fun t => t.x 3 == 0xFFFFF000 && t.pc == 0x1004) = true := by decide

theorem test_auipc :
    answers (step (loaded .rv32 0x00000197 []))
      (fun t => t.x 3 == 0x00001000 && t.pc == 0x1004) = true := by decide

theorem test_addw :
    answers (step (loaded .rv64 0x002081BB [(1, 0x000000007FFFFFFF), (2, 0x0000000000000001)]))
      (fun t => t.x 3 == 0xFFFFFFFF80000000 && t.pc == 0x1004) = true := by decide

theorem test_addiw :
    answers (step (loaded .rv64 0x0000819B [(1, 0x00000000FFFFFFFF)]))
      (fun t => t.x 3 == 0xFFFFFFFFFFFFFFFF && t.pc == 0x1004) = true := by decide

theorem test_subw :
    answers (step (loaded .rv64 0x402081BB [(1, 0x0000000000000000), (2, 0x0000000000000001)]))
      (fun t => t.x 3 == 0xFFFFFFFFFFFFFFFF && t.pc == 0x1004) = true := by decide

theorem test_xor :
    answers (step (loaded .rv32 0x0020C1B3 [(1, 0xFF00FF00), (2, 0x0FF00FF0)]))
      (fun t => t.x 3 == 0xF0F0F0F0 && t.pc == 0x1004) = true := by decide

theorem test_xori :
    answers (step (loaded .rv32 0xFFF0C193 [(1, 0x12345678)]))
      (fun t => t.x 3 == 0xEDCBA987 && t.pc == 0x1004) = true := by decide

theorem test_or :
    answers (step (loaded .rv32 0x0020E1B3 [(1, 0xF0F00000), (2, 0x00000F0F)]))
      (fun t => t.x 3 == 0xF0F00F0F && t.pc == 0x1004) = true := by decide

theorem test_ori :
    answers (step (loaded .rv32 0x7FF0E193 [(1, 0x80000000)]))
      (fun t => t.x 3 == 0x800007FF && t.pc == 0x1004) = true := by decide

theorem test_and :
    answers (step (loaded .rv32 0x0020F1B3 [(1, 0xFFFF0000), (2, 0x0FF00FF0)]))
      (fun t => t.x 3 == 0x0FF00000 && t.pc == 0x1004) = true := by decide

theorem test_andi :
    answers (step (loaded .rv32 0x0FF0F193 [(1, 0x12345678)]))
      (fun t => t.x 3 == 0x00000078 && t.pc == 0x1004) = true := by decide

theorem test_slt :
    answers (step (loaded .rv32 0x0020A1B3 [(1, 0xFFFFFFFF), (2, 0x00000001)]))
      (fun t => t.x 3 == 0x00000001 && t.pc == 0x1004) = true := by decide

theorem test_sltu :
    answers (step (loaded .rv32 0x0020B1B3 [(1, 0xFFFFFFFF), (2, 0x00000001)]))
      (fun t => t.x 3 == 0x00000000 && t.pc == 0x1004) = true := by decide

theorem test_slti :
    answers (step (loaded .rv32 0xFFF0A193 [(1, 0xFFFFFFFE)]))
      (fun t => t.x 3 == 0x00000001 && t.pc == 0x1004) = true := by decide

theorem test_sltiu :
    answers (step (loaded .rv32 0xFFF0B193 [(1, 0xFFFFFFFE)]))
      (fun t => t.x 3 == 0x00000001 && t.pc == 0x1004) = true := by decide

theorem test_beq :
    answers (step (loaded .rv32 0xFE208EE3 [(1, 0x00000005), (2, 0x00000005)]))
      (fun t => t.pc == 0xFFC) = true := by decide

theorem test_bltu :
    answers (step (loaded .rv32 0x0020E463 [(1, 0xFFFFFFFF), (2, 0x00000000)]))
      (fun t => t.pc == 0x1004) = true := by decide

theorem test_bge :
    answers (step (loaded .rv32 0x0020D463 [(1, 0x00000005), (2, 0x00000005)]))
      (fun t => t.pc == 0x1008) = true := by decide

theorem test_bgeu :
    answers (step (loaded .rv32 0x0020F463 [(1, 0x80000000), (2, 0x00000000)]))
      (fun t => t.pc == 0x1008) = true := by decide

theorem test_beq_traps :
    answers (step (loaded .rv32 0x00000363 []))
      (fun t => t.mcause == 0 && t.mtval == 0x1006 && t.pc == 0x100 && t.mepc == 0x1000 && t.minstret == 0) =
        true := by decide

theorem test_bne : answers (step (loaded .rv32 0x00001363 [])) (fun t => t.pc == 0x1004) = true := by decide

theorem test_blt :
    answers (step (loaded .rv64 0x0020C463 [(1, 0x00000000FFFFFFFF), (2, 0x0000000000000000)]))
      (fun t => t.pc == 0x1004) = true := by decide

theorem test_jal :
    answers (step (loaded .rv32 0x000000EF []))
      (fun t => t.x 1 == 0x00001004 && t.pc == 0x1000) = true := by decide

theorem test_jalr :
    answers (step (loaded .rv32 0x004080E7 [(1, 0x00002000)]))
      (fun t => t.x 1 == 0x00001004 && t.pc == 0x2004) = true := by decide

theorem test_jalr_traps :
    answers (step (loaded .rv32 0x000280E7 [(5, 0x00002002)]))
      (fun t => t.mcause == 0 && t.mtval == 0x2002 && t.pc == 0x100 && t.mepc == 0x1000 && t.minstret == 0) =
        true := by decide

theorem test_lb :
    answers (step (loaded .rv32 0x00030283 [(6, 0x00002000)]))
      (fun t => t.x 5 == 0xFFFFFF80 && t.pc == 0x1004) = true := by decide

theorem test_lbu :
    answers (step (loaded .rv32 0x00034283 [(6, 0x00002000)]))
      (fun t => t.x 5 == 0x00000080 && t.pc == 0x1004) = true := by decide

theorem test_lh :
    answers (step (loaded .rv32 0x00031283 [(6, 0x00002000)]))
      (fun t => t.x 5 == 0xFFFF9180 && t.pc == 0x1004) = true := by decide

theorem test_lhu :
    answers (step (loaded .rv32 0x00035283 [(6, 0x00002000)]))
      (fun t => t.x 5 == 0x00009180 && t.pc == 0x1004) = true := by decide

theorem test_lw :
    answers (step (loaded .rv32 0x00432283 [(6, 0x00002000)]))
      (fun t => t.x 5 == 0xF7665544 && t.pc == 0x1004) = true := by decide

theorem test_lwu :
    answers (step (loaded .rv64 0x00036283 [(6, 0x0000000000002000)]))
      (fun t => t.x 5 == 0x00000000B3A29180 && t.pc == 0x1004) = true := by decide

theorem test_lw_traps :
    answers (step (loaded .rv32 0x00232283 [(6, 0x00002000)]))
      (fun t => t.mcause == 4 && t.mtval == 0x2002 && t.pc == 0x100 && t.mepc == 0x1000 && t.minstret == 0) =
        true := by decide

theorem test_ld :
    answers (step (loaded .rv64 0x00033283 [(6, 0x0000000000002000)]))
      (fun t => t.x 5 == 0xF7665544B3A29180 && t.pc == 0x1004) = true := by decide

theorem test_sb :
    answers (step (loaded .rv32 0x007303A3 [(6, 0x00002000), (7, 0x00001234)]))
      (fun t => memByte t.mem 0x2000 == 0x80 && memByte t.mem 0x2001 == 0x91 && memByte t.mem 0x2002 == 0xA2 &&
        memByte t.mem 0x2003 == 0xB3 && memByte t.mem 0x2004 == 0x44 && memByte t.mem 0x2005 == 0x55 && memByte
        t.mem 0x2006 == 0x66 && memByte t.mem 0x2007 == 0x34 && t.pc == 0x1004) = true := by decide

theorem test_sh :
    answers (step (loaded .rv32 0x00731123 [(6, 0x00002000), (7, 0xCAFEBABE)]))
      (fun t => memByte t.mem 0x2000 == 0x80 && memByte t.mem 0x2001 == 0x91 && memByte t.mem 0x2002 == 0xBE &&
        memByte t.mem 0x2003 == 0xBA && memByte t.mem 0x2004 == 0x44 && memByte t.mem 0x2005 == 0x55 && memByte
        t.mem 0x2006 == 0x66 && memByte t.mem 0x2007 == 0xF7 && t.pc == 0x1004) = true := by decide

theorem test_sw :
    answers (step (loaded .rv32 0x00732223 [(6, 0x00002000), (7, 0xCAFEBABE)]))
      (fun t => memByte t.mem 0x2000 == 0x80 && memByte t.mem 0x2001 == 0x91 && memByte t.mem 0x2002 == 0xA2 &&
        memByte t.mem 0x2003 == 0xB3 && memByte t.mem 0x2004 == 0xBE && memByte t.mem 0x2005 == 0xBA && memByte
        t.mem 0x2006 == 0xFE && memByte t.mem 0x2007 == 0xCA && t.pc == 0x1004) = true := by decide

theorem test_sd :
    answers (step (loaded .rv64 0x00733023 [(6, 0x0000000000002000), (7, 0x1122334455667788)]))
      (fun t => memByte t.mem 0x2000 == 0x88 && memByte t.mem 0x2001 == 0x77 && memByte t.mem 0x2002 == 0x66 &&
        memByte t.mem 0x2003 == 0x55 && memByte t.mem 0x2004 == 0x44 && memByte t.mem 0x2005 == 0x33 && memByte
        t.mem 0x2006 == 0x22 && memByte t.mem 0x2007 == 0x11 && t.pc == 0x1004) = true := by decide

theorem test_sw_traps :
    answers (step (loaded .rv32 0x00732023 [(6, 0x00100000), (7, 0x00000001)]))
      (fun t => t.mcause == 7 && t.mtval == 0x100000 && t.pc == 0x100 && t.mepc == 0x1000 && t.minstret == 0) =
        true := by decide

theorem test_fence : answers (step (loaded .rv32 0x0330000F [])) (fun t => t.pc == 0x1004) = true := by decide

theorem test_fencei :
    answers (step { loaded .rv32 0x0000100F [] with staleFetch := [0x2000, 0x2001, 0x2002, 0x2003] })
      (fun t => t.pc == 0x1004 && t.staleFetch == []) = true := by decide

theorem test_ecall_traps :
    answers (step (loaded .rv32 0x00000073 []))
      (fun t => t.mcause == 11 && t.mtval == 0x0 && t.pc == 0x100 && t.mepc == 0x1000 && t.minstret == 0) = true
        := by decide

theorem test_ebreak_traps :
    answers (step (loaded .rv32 0x00100073 []))
      (fun t => t.mcause == 3 && (t.mtval == 0 || t.mtval == 0x1000) && t.pc == 0x100 && t.mepc == 0x1000 && t.minstret == 0) =
        true := by decide

theorem test_csrrw_1 :
    answers (step { loaded .rv32 0x340312F3 [(6, 0xAAAA5555)] with mscratch := 0x1234 })
      (fun t => t.x 5 == 0x00001234 && t.mscratch == 0xAAAA5555 && t.pc == 0x1004) = true := by decide

theorem test_csrrs_1 :
    answers (step { loaded .rv32 0x340022F3 [] with mscratch := 0x1234 })
      (fun t => t.x 5 == 0x00001234 && t.mscratch == 0x1234 && t.pc == 0x1004) = true := by decide

theorem test_csrrs_2 :
    answers (step { loaded .rv32 0x340322F3 [(6, 0x000000F0)] with mscratch := 0x1234 })
      (fun t => t.x 5 == 0x00001234 && t.mscratch == 0x12F4 && t.pc == 0x1004) = true := by decide

theorem test_csrrc :
    answers (step { loaded .rv32 0x340332F3 [(6, 0x000000F0)] with mscratch := 0x12F4 })
      (fun t => t.x 5 == 0x000012F4 && t.mscratch == 0x1204 && t.pc == 0x1004) = true := by decide

theorem test_csrrwi :
    answers (step { loaded .rv32 0x340FD2F3 [] with mscratch := 0x1234 })
      (fun t => t.x 5 == 0x00001234 && t.mscratch == 0x1F && t.pc == 0x1004) = true := by decide

theorem test_csrrsi :
    answers (step { loaded .rv32 0x340062F3 [] with mscratch := 0x1234 })
      (fun t => t.x 5 == 0x00001234 && t.mscratch == 0x1234 && t.pc == 0x1004) = true := by decide

theorem test_csrrci :
    answers (step { loaded .rv32 0x340272F3 [] with mscratch := 0x1234 })
      (fun t => t.x 5 == 0x00001234 && t.mscratch == 0x1230 && t.pc == 0x1004) = true := by decide

theorem test_csrrw_2 :
    answers (step (loaded .rv32 0x34131073 [(6, 0x00001003)]))
      (fun t => t.mepc == 0x1000 && t.pc == 0x1004) = true := by decide

theorem test_csrrs_traps_1 :
    answers (step (loaded .rv32 0xF14322F3 [(6, 0x00000000)]))
      (fun t => t.mcause == 2 && t.mtval == 0xF14322F3 && t.pc == 0x100 && t.mepc == 0x1000 && t.minstret == 0)
        = true := by decide

theorem test_csrrs_traps_2 :
    answers (step { loaded .rv32 0x300022F3 [] with priv := .s })
      (fun t => t.mcause == 2 && t.mtval == 0x300022F3 && t.pc == 0x100 && t.mepc == 0x1000 && t.minstret == 0)
        = true := by decide

theorem test_mret :
    answers (step { loaded .rv32 0x30200073 [] with mstatus := 0x1880, mepc := 0x2000 })
      (fun t => t.mstatus == 0x88 && t.pc == 0x2000 && t.priv == .m) = true := by decide

theorem test_mret_traps :
    answers (step { loaded .rv32 0x30200073 [] with mstatus := 0x80, mepc := 0x2000, priv := .s })
      (fun t => t.mcause == 2 && t.mtval == 0x30200073 && t.pc == 0x100 && t.mepc == 0x1000 && t.minstret == 0)
        = true := by decide

theorem test_sret :
    answers (step { loaded .rv32 0x10200073 [] with mstatus := 0x120, sepc := 0x3000, priv := .s })
      (fun t => t.mstatus == 0x22 && t.pc == 0x3000 && t.priv == .s) = true := by decide

theorem test_wfi :
    answers (step { loaded .rv32 0x10500073 [] with priv := .s })
      (fun t => t.pc == 0x1004 && t.wfiWait) = true := by decide

theorem test_sfencevma_traps :
    answers (step { loaded .rv32 0x12000073 [] with mstatus := 0x100000, priv := .s })
      (fun t => t.mcause == 2 && t.mtval == 0x12000073 && t.pc == 0x100 && t.mepc == 0x1000 && t.minstret == 0)
        = true := by decide

theorem test_sfencevma :
    answers (step { loaded .rv32 0x12628073 [] with priv := .s })
      (fun t => t.pc == 0x1004) = true := by decide

/-! ## What stops, and what the platform drives -/

/-- The step is refused for the reason `q`. -/
def refusesWith (r : Result) (q : Refusal) : Bool :=
  match r with
  | .next _ => false
  | .fault _ => false
  | .refused p => p == q

/-- 44_synch_environment.md R191: a fetch of bytes stored since the last FENCE.I is given no meaning. -/
theorem test_stale_fetch : refusesWith (step { loaded .rv32 0x13 [] with staleFetch := [0x1003] }) .staleFetch = true := by
  decide

/-- 10_state.md R46: a non-zero write to `satp`. -/
theorem test_satp : refusesWith (step (loaded .rv64 0x18031073 [(6, 1)])) .satpNonZero = true := by decide

/-- 70_reset_and_hazards.md R362: an exception before `mtvec` is written, and a delegated one before `stvec` is. -/
theorem test_vector_unwritten :
    refusesWith (step { loaded .rv64 0x00000073 [] with mtvecWritten := false }) .vectorUnwritten = true ∧
      refusesWith (step { loaded .rv64 0x00000073 [] with priv := .u, medeleg := 0x100, stvecWritten := false })
        .vectorUnwritten = true := by decide

/-- R362: the CSRRW that writes `mtvec` makes the vector count as written. -/
theorem test_vector_written :
    answers (step { loaded .rv64 0x30531073 [(6, 0x200)] with mtvecWritten := false })
      (fun t => t.mtvecWritten && t.mtvec == 0x200) = true := by decide

/-- 60_exceptions.md R345: the largest cycle increment. -/
theorem test_cycles :
    answers (step { loaded .rv64 0x13 [] with mcycle := 5, script := [{ quietDraw with extraCycles := 18446744073709551614 }] })
      (fun t => t.mcycle == 4) = true := by decide

/-- A draw with the machine external line up and the given number of steps of holding off. -/
def meiDraw (delay : Nat) : Draw := { quietDraw with meip := true, interruptDelay := delay }

/-- A state in which MEI is enabled, with one draw for each step. -/
def enabled (draws : List Draw) : State :=
  { loaded .rv64 0x00000013 [] with mie := 0x800, mstatus := 0x8, script := draws }

/-- An interrupt is taken before the instruction at `pc`: epc = `pc`, cause 2^63 + 11, trap value 0. -/
theorem test_interrupt :
    answers (step (enabled [meiDraw 0])) (fun t =>
      t.mepc == 0x1000 && t.mcause == 0x800000000000000B && t.mtval == 0 && t.pc == 0x100 && t.mstatus == 0x1880) = true := by
  decide

/-- R232: the hart wakes when MTIP is pending and enabled in `mie`, takes no trap with MIE = 0, and goes on. -/
theorem test_wfi_wakes :
    answers (step { loaded .rv32 0x13 [] with
      wfiWait := true, mie := 0x80, script := [{ quietDraw with mtip := true }] })
      (fun t => t.pc == 0x1004 && t.wfiWait == false && t.mcause == 0) = true := by decide

/-- R232: a waiting hart with nothing pending idles: `mcycle` moves, `minstret` does not. -/
theorem test_wfi_idles :
    answers (step { loaded .rv32 0x13 [] with wfiWait := true })
      (fun t => t.pc == 0x1000 && t.wfiWait && t.mcycle == 1 && t.minstret == 0) = true := by decide

/-! ## The states that meet the hypotheses of the statements

One theorem for each statement that has hypotheses, named after it; where a statement has clauses, one state for each,
at the ends of the ranges. -/

open Sys2Proof.Claims

/-- A machine with plain memory, a device, a read-only region and a region that may not be read. -/
def plat (xl : Xlen) : Platform where
  xlen := xl
  resetVector := 0x1000
  pma :=
    [{ base := 0, size := 0x100000, kind := .main, r := true, w := true, x := true },
     { base := 0x200000, size := 0x1000, kind := .io, r := true, w := true, x := false },
     { base := 0x300000, size := 0x1000, kind := .main, r := true, w := false, x := false },
     { base := 0x400000, size := 0x1000, kind := .main, r := false, w := true, x := false }]

/-- A state of that machine with x6 and x7 set. -/
def st (xl : Xlen) (a b : Word) : State :=
  ({ State.resetFor (plat xl) [] with mtvec := 0x100, mtvecWritten := true, script := [quietDraw] }.setX 6 a).setX 7 b

theorem test_plat_wf : (plat .rv32).wf = true ∧ (plat .rv64).wf = true := by decide

theorem witness_DecodeGivesBackEncoded :
    (Instr.slli 31 31 31).wellFormed .rv32 = true ∧ (Instr.slli 0 0 63).wellFormed .rv64 = true ∧
      (Instr.bgeu 31 31 0x1000).wellFormed .rv32 = true ∧ (Instr.jal 31 0x100000).wellFormed .rv64 = true := by decide

theorem witness_EncodeGivesBackDecoded : decode .rv64 0x10500073 = .ok .wfi := by decide

theorem witness_OtherLengthsRejected :
    (0x00000012#32).toNat % 4 ≠ 3 ∧ (0x0000001F#32).toNat / 4 % 8 = 7 := by decide

/-- For every statement about an exception (`TakesException`): to M-mode and to S-mode, with the vector written and not. -/
theorem witness_VectorWritten :
    let u := { st .rv32 0 0 with priv := .u, medeleg := 0x100 }
    VectorWritten (st .rv32 0 0) .illegalInstr ∧ ¬VectorWritten (st .rv32 0 0).resetMove .illegalInstr ∧
      ¬VectorWritten u .ecallU ∧ VectorWritten { u with stvecWritten := true } .ecallU := by
  intro u
  refine ⟨?_, ?_, ?_, ?_⟩ <;> unfold VectorWritten excTarget <;> decide

theorem witness_Rv64FormsIllegalOnRv32 :
    (st .rv32 0 0).xlen = .rv32 ∧ (Instr.sd 1 2 3).rv64Only = true ∧ 32 ≤ (32#6).toNat ∧ 32 ≤ (63#6).toNat := by decide

/-- A running hart and a waiting one that wakes. -/
theorem witness_StepRunsDecodedInstruction (w : Bool) :
    let s := { loaded .rv32 0x002091B3 [] with wfiWait := w, script := [{ quietDraw with wake := true }] }
    Runs s ∧ interruptNow (awake s) = none ∧ Fetches (awake s) (.sll 3 1 2) := by
  refine ⟨fun _ => ?_, ?_, ?_, ⟨_, rfl, rfl, rfl⟩, fun a h => ?_, ?_⟩
  · cases w <;> decide
  · cases w <;> decide
  · cases w <;> decide
  · cases w <;> cases h
  · cases w <;> rfl

/-- With the vector written and not. -/
theorem witness_StepTrapsOnIllegalWord (b : Bool) :
    let s := { loaded .rv64 0xFFFFFFFF [] with mtvecWritten := b }
    Runs s ∧ interruptNow (awake s) = none ∧ s.pc.toNat % 4 = 0 ∧ Executable s ∧ Fresh s ∧
      decodeBytes s.xlen (codeBytes s) = .error .longEncoding ∧ (VectorWritten (awake s) .illegalInstr ↔ b = true) := by
  refine ⟨?_, ?_, ?_, ⟨_, rfl, rfl, rfl⟩, ?_, ?_, ?_⟩
  · intro h; cases h
  · cases b <;> decide
  · cases b <;> decide
  · intro a h; cases h
  · cases b <;> rfl
  · unfold VectorWritten excTarget; cases b <;> decide

/-- Past the end of the region, and inside a device; with the vector written and not. -/
theorem witness_StepTrapsOnFetchFault (pc : Word) (b : Bool) (h : pc = 0x100000 ∨ pc = 0x200000) :
    let s := { st .rv64 0 0 with pc := pc, mtvecWritten := b }
    Runs s ∧ interruptNow (awake s) = none ∧ s.pc.toNat % 4 = 0 ∧
      (VectorWritten (awake s) .instrAccessFault ↔ b = true) ∧
      (∀ r, s.platform.regionAt s.pc.toNat 4 = some r → r.x = false ∨ r.kind = .io) := by
  refine ⟨?_, ?_, ?_, ?_, ?_⟩
  · intro h; cases h
  · cases b <;> rcases h with rfl | rfl <;> decide
  · cases b <;> rcases h with rfl | rfl <;> decide
  · unfold VectorWritten excTarget; cases b <;> rcases h with rfl | rfl <;> decide
  · rcases h with rfl | rfl
    · intro r h; cases h
    · intro r h; cases h; exact .inl rfl

/-- The first and the last byte of the word. -/
theorem witness_StepRefusesStaleFetch (k : Nat) (h : k = 0x1000 ∨ k = 0x1003) :
    let s := { st .rv64 0 0 with staleFetch := [k] }
    Runs s ∧ interruptNow (awake s) = none ∧ s.pc.toNat % 4 = 0 ∧ Executable s ∧
      ∃ a ∈ s.staleFetch, s.pc.toNat ≤ a ∧ a < s.pc.toNat + 4 := by
  refine ⟨?_, ?_, ?_, ⟨_, rfl, rfl, rfl⟩, k, ?_, ?_⟩
  · intro h; cases h
  · rcases h with rfl | rfl <;> decide
  · rcases h with rfl | rfl <;> decide
  · rcases h with rfl | rfl <;> decide
  · rcases h with rfl | rfl <;> decide

theorem witness_StepTakesInterrupt :
    Runs (enabled [meiDraw 0]) ∧ interruptNow (awake (enabled [meiDraw 0])) = some .mei := by
  refine ⟨?_, ?_⟩
  · intro h; cases h
  · decide

theorem witness_WaitingHartIdlesOrWakes :
    let s := { enabled [quietDraw] with wfiWait := true }
    let u := { enabled [meiDraw 0] with wfiWait := true }
    s.wfiWait = true ∧ wakes s.sample = false ∧ u.wfiWait = true ∧ u.sample.mip &&& u.mie ≠ 0 := by decide

theorem witness_StepKeepsStateInvariant :
    (loaded .rv64 0x00733023 [(6, 0x2000), (7, 5)]).Inv ∧
      answers (step (loaded .rv64 0x00733023 [(6, 0x2000), (7, 5)])) (fun t => t.staleFetch.length == 8) = true := by
  decide

theorem witness_NoStepFaults : (st .rv32 0 0).Inv := by decide

theorem witness_OnlyStoresChangeMemory :
    answers (step (loaded .rv64 0x00730023 [(6, 0xFFFFF), (7, 5)])) (fun t => memByte t.mem 0xFFFFF != 0) = true := by
  decide

/-- MRET from M to U and SRET from S to U. -/
theorem witness_OnlyReturnsLowerPrivilege :
    answers (step (loaded .rv64 0x30200073 [])) (fun t => decide (t.priv.level < 3)) = true ∧
      answers (step { loaded .rv64 0x10200073 [] with priv := .s }) (fun t => decide (t.priv.level < 1)) = true := by
  decide

/-- ECALL from U to M, and from U to S when it is delegated. -/
theorem witness_OnlyTrapsRaisePrivilege :
    answers (step { loaded .rv64 0x00000073 [] with priv := .u }) (fun t => t.priv == .m) = true ∧
      answers (step { loaded .rv64 0x00000073 [] with priv := .u, medeleg := 0x100 }) (fun t => t.priv == .s) = true := by
  decide

theorem witness_UserModeKeepsControlRegisters :
    answers (step { loaded .rv32 0x00000013 [] with priv := .u }) (fun t => t.priv == .u) = true := by decide

/-- The state after one step, for the run below. -/
def afterStep (s : State) : State :=
  match step s with
  | .next t => t
  | .fault _ => s
  | .refused _ => s

/-- A run in which MEI is held off for one step. -/
def heldOff (n : Nat) : State :=
  match n with
  | 0 => enabled [meiDraw 1, meiDraw 1]
  | _ => afterStep (enabled [meiDraw 1, meiDraw 1])

theorem witness_TakeableInterruptIsBounded :
    delayLeft (heldOff 0).postponed (heldOff 0).nextDraw.interruptDelay .mei = 1 ∧
      (∀ n, n < 1 → step (heldOff n) = .next (heldOff (n + 1))) ∧
      (∀ n, n ≤ 1 → takeable (awake (heldOff n)) .mei = true) := by
  refine ⟨by decide, fun n h => ?_, fun n h => ?_⟩
  · obtain rfl : n = 0 := by omega
    rfl
  · obtain rfl | rfl : n = 0 ∨ n = 1 := by omega
    · decide
    · decide

theorem witness_RegisterZeroIsHardwired : (1#5 : RegNum) ≠ 0#5 ∧ (31#5 : RegNum) ≠ 0#5 := by decide

/-- For WordArithmetic, WordShifts, WideLoads and StoresByWidth. -/
theorem witness_WordArithmetic : (st .rv64 0 0).xlen = .rv64 ∧ (st .rv32 0 0).xlen = .rv32 := ⟨rfl, rfl⟩

/-- The amounts at both ends of each range: below XLEN, and from XLEN on (which only RV32 has). -/
theorem witness_ImmediateShifts :
    (31#6).toNat < (st .rv32 0 0).xlen.bits ∧ (63#6).toNat < (st .rv64 0 0).xlen.bits ∧
      (st .rv32 0 0).xlen.bits ≤ (32#6).toNat ∧ (st .rv32 0 0).xlen.bits ≤ (63#6).toNat := by decide

/-- Each condition met and not met. -/
theorem witness_BranchesCompareAndGo :
    let s := st .rv32 0x80000000 0x7FFFFFFF
    (s.x 6 = s.x 6 ∧ s.x 6 ≠ s.x 7) ∧ (asSigned s (s.x 6) < asSigned s (s.x 7)) ∧
      ¬(asSigned s (s.x 7) ≤ asSigned s (s.x 6)) ∧ ((s.x 7).toNat < (s.x 6).toNat) ∧
      ¬((s.x 6).toNat ≤ (s.x 7).toNat) := by decide

/-- Aligned and misaligned targets of branches and jumps, at both ends of the offsets. -/
theorem witness_JumpsLinkAndGo :
    let s := st .rv32 0x2001 0
    relative s (0x1000#13) % 4 = 0 ∧ relative s (0xFFE#13) % 4 ≠ 0 ∧ relative s (0x100000#21) % 4 = 0 ∧
      relative s (0xFFFFE#21) % 4 ≠ 0 ∧ viaRegister s 6 0 % 4 = 0 ∧ viaRegister s 6 0x7FF % 4 = 0 ∧
      viaRegister s 6 2 % 4 ≠ 0 := by decide

theorem witness_EcallAndEbreakTrap (p : Priv) : { st .rv32 0 0 with priv := p }.priv = p := rfl

/-- Aligned in memory at the last bytes of the region, aligned in the device, misaligned, and outside every region that
may be read. -/
theorem witness_LoadsByWidth :
    (addr (st .rv64 0xFFFF8 0) 6 0 % 8 = 0 ∧ Readable (st .rv64 0xFFFF8 0) (addr (st .rv64 0xFFFF8 0) 6 0) 8 .main) ∧
      (addr (st .rv32 0x200FFC 0) 6 0 % 4 = 0 ∧
        Readable (st .rv32 0x200FFC 0) (addr (st .rv32 0x200FFC 0) 6 0) 4 .io) ∧
      addr (st .rv32 0x2000 0) 6 1 % 2 ≠ 0 ∧ Unreadable (st .rv32 0x100000 0) 0x100000 2 ∧
      Unreadable (st .rv32 0x400000 0) 0x400000 4 := by
  refine ⟨⟨by decide, _, rfl, rfl, rfl⟩, ⟨by decide, _, rfl, rfl, rfl⟩, by decide, ?_, ?_⟩
  · intro r h; cases h
  · intro r h; cases h; rfl

theorem witness_StoresByWidth :
    (addr (st .rv64 0xFFFF8 0) 6 0 % 8 = 0 ∧ Writable (st .rv64 0xFFFF8 0) (addr (st .rv64 0xFFFF8 0) 6 0) 8 .main) ∧
      (addr (st .rv32 0x200FFC 0) 6 0 % 4 = 0 ∧
        Writable (st .rv32 0x200FFC 0) (addr (st .rv32 0x200FFC 0) 6 0) 4 .io) ∧
      addr (st .rv32 0x2000 0) 6 2 % 4 ≠ 0 ∧ Unwritable (st .rv32 0x100000 0) 0x100000 1 ∧
      Unwritable (st .rv32 0x300000 0) 0x300000 4 := by
  refine ⟨⟨by decide, _, rfl, rfl, rfl⟩, ⟨by decide, _, rfl, rfl, rfl⟩, by decide, ?_, ?_⟩
  · intro r h; cases h
  · intro r h; cases h; rfl

theorem witness_StoredValueReadsBack :
    8 ≤ 8 ∧ Readable (st .rv32 0 0) (0xFFFF8#64).toNat 8 .main ∧ Writable (st .rv32 0 0) (0xFFFF8#64).toNat 8 .main ∧
      ∃ t, memWrite (st .rv32 0 0) 0xFFFF8 8 5 = .ok t :=
  ⟨by decide, ⟨_, rfl, rfl, rfl⟩, ⟨_, rfl, rfl, rfl⟩, ⟨_, rfl⟩⟩

theorem witness_CsrAddressesAreTheTables :
    csrAt .rv32 0xC9F = some (.hpmcounterh 31) ∧ csrAt .rv64 0x323 = some (.mhpmevent 3) ∧ csrAt .rv64 0xC80 = none := by
  decide

/-- The check passed by a read and by a write, and failed for each of its reasons: the privilege level, a read-only
register, `satp` under TVM, and a counter that is not enabled. -/
theorem witness_CsrInstructionsReadAndWrite :
    let s := st .rv64 0 0
    CsrPasses s 0x340 true ∧ CsrPasses s 0xF14 false ∧ csrAt s.xlen 0x340 = some .mscratch ∧
      CsrPasses { s with priv := .u, mcounteren := 2, scounteren := 2 } 0xC01 false ∧
      ¬CsrPasses { s with priv := .u } 0x100 false ∧ ¬CsrPasses s 0xC00 true ∧
      ¬CsrPasses { s with priv := .s, mstatus := 0x100000 } 0x180 false ∧
      ¬CsrPasses { s with priv := .s } 0xC02 false ∧ ¬CsrPasses s 0x7C0 false := by
  intro s
  refine ⟨?_, ?_, by decide, ?_, ?_, ?_, ?_, ?_, ?_⟩ <;> unfold CsrPasses <;> decide

/-- A write and a read of ordinary registers, and the zero writes to `satp`. -/
theorem witness_CsrInstructionsComplete :
    let s := st .rv64 0 0
    CsrPasses s 0x305 true ∧ CsrPasses s 0xC00 (0#5 != 0#5) ∧ CsrPasses s 0x180 true ∧ s.x 6 = 0 ∧
      CsrPasses s 0x180 (6#5 != 0#5) ∧ CsrPasses { s with priv := .s } 0x180 (0#5 != 0#5) := by
  intro s
  refine ⟨?_, ?_, ?_, by decide, ?_, ?_⟩ <;> unfold CsrPasses <;> decide

theorem witness_SatpNonZeroIsRefused : CsrPasses (st .rv64 0 1) 0x180 true ∧ (st .rv64 0 1).x 7 ≠ 0 ∧ (7#5) ≠ 0#5 := by
  refine ⟨?_, by decide, by decide⟩
  unfold CsrPasses; decide

theorem witness_CsrReadsBackWhatWasWritten :
    csrWrite .mepc 7 (st .rv32 0 0) = .ok { st .rv32 0 0 with mepc := 4 } ∧
      readsBack .mepc (st .rv32 0 0) 7 = some 4 ∧
      ¬((0x1800#64).getLsbD 12 = true ∧ (0x1800#64).getLsbD 11 = false) := ⟨rfl, rfl, by decide⟩

theorem witness_IllegalMppWriteLeavesLegalValue :
    (∃ u, csrWrite .mstatus 0x1000 (st .rv64 0 0) = .ok u) ∧ (0x1000#64).getLsbD 12 = true ∧
      (0x1000#64).getLsbD 11 = false := ⟨⟨_, rfl⟩, by decide, by decide⟩

theorem witness_CsrWriteLeavesOthers :
    (∃ u, csrWrite .mtvec 5 (st .rv64 0 0) = .ok u) ∧ shares .mtvec .stvec = false ∧ shares .mstatus .sstatus = true :=
  ⟨⟨_, rfl⟩, by decide, by decide⟩

/-- For PendingBitsAreAssembled and SupervisorViews. -/
theorem witness_SupervisorViews :
    (∃ u, csrWrite .mip 0x222 (st .rv64 0 0) = .ok u) ∧ (∃ u, csrWrite .sstatus 2 (st .rv64 0 0) = .ok u) ∧
      (∃ u, csrWrite .sie 2 (st .rv64 0 0) = .ok u) ∧ ∃ u, csrWrite .sip 2 (st .rv64 0 0) = .ok u :=
  ⟨⟨_, rfl⟩, ⟨_, rfl⟩, ⟨_, rfl⟩, ⟨_, rfl⟩⟩

theorem witness_CountersByHalves (xl : Xlen) :
    (st xl 0 0).xlen = xl ∧ (∃ u, csrWrite .mcycle 5 (st xl 0 0) = .ok u) ∧
      (∃ u, csrWrite .mcycleh 5 (st xl 0 0) = .ok u) ∧ (∃ u, csrWrite .minstret 5 (st xl 0 0) = .ok u) ∧
      ∃ u, csrWrite .minstreth 5 (st xl 0 0) = .ok u :=
  ⟨rfl, ⟨_, rfl⟩, ⟨_, rfl⟩, ⟨_, rfl⟩, ⟨_, rfl⟩⟩

/-- The fields behind the exception registers, and a register that has none. -/
theorem witness_fieldOf :
    fieldOf .mepc { st .rv64 0 0 with mepc := 4 } = some 4 ∧ fieldOf .sepc { st .rv64 0 0 with sepc := 8 } = some 8 ∧
      fieldOf .misa (st .rv64 0 0) = none := ⟨rfl, rfl, rfl⟩

/-- MRET with each legal MPP, and below M-mode. -/
theorem witness_MretReturns (v : Word) (h : v = 0 ∨ v = 0x800 ∨ v = 0x1800) :
    let s := { st .rv64 0 0 with mstatus := v }
    s.priv = .m ∧ s.mstatus.extractLsb' 11 2 ≠ 2#2 ∧ { s with priv := .s }.priv ≠ .m := by
  rcases h with rfl | rfl | rfl <;> decide

/-- For SretReturns, WfiWaits and SfenceVmaGoesOn: S-mode with TVM, TW and TSR all 0 and all 1, U-mode and M-mode. -/
theorem witness_SretReturns :
    let s := { st .rv64 0 0 with priv := .s }
    let u := { s with mstatus := 0x700000 }
    (s.priv = .s ∧ s.mstatus.getLsbD 22 = false ∧ s.mstatus.getLsbD 21 = false ∧ s.mstatus.getLsbD 20 = false) ∧
      (u.priv = .s ∧ u.mstatus.getLsbD 22 = true ∧ u.mstatus.getLsbD 21 = true ∧ u.mstatus.getLsbD 20 = true) ∧
      (st .rv64 0 0).priv = .m ∧ { s with priv := .u }.priv = .u := by decide

/-- MEI and SSI are both takeable, and MEI is taken. -/
theorem witness_HighestPriorityIsTaken :
    let s := { enabled [meiDraw 0] with mie := 0x802, ssip := true }
    interruptNow s.sample = some .mei ∧ takeable s.sample .ssi = true := by decide

theorem witness_NoInterruptAfterReset :
    (st .rv64 0 0).priv = .m ∧ (st .rv64 0 0).mstatus.getLsbD 3 = false := by decide

/-- For PseudoInstructions. -/
theorem witness_PseudoInstructions : (1#5 : RegNum) ≠ 0#5 := by decide

end Sys2Proof.Tests
end

section
/-! PROOFS. The family `00_scope.md`: one step of a running hart that takes no interrupt executes the instruction whose
bytes are at `pc` (R15). -/

namespace Sys2Proof.Proofs.Scope

open Sys2Proof.Machine Sys2Proof.Claims

/-- The bytes at `pc` in memory order are decoded as the word `Fetch` reads there (20_memory.md R82, R92). -/
theorem decodeBytes_codeBytes_ok {s : State} {i : Instr} (h : decodeBytes s.xlen (codeBytes s) = .ok (i, [])) :
    decode s.xlen (memWord s.mem s.pc.toNat) = .ok i := by
  simp only [decodeBytes, codeBytes] at h
  split at h
  · next j hj =>
    cases h
    exact hj
  · cases h

/-- `Fetch(pc)` succeeds on fresh aligned bytes in an executable `main` region (20_memory.md R92, R101). -/
theorem fetch_eq_word {s : State} (hal : s.pc.toNat % 4 = 0) (hx : Executable s) (hfresh : Fresh s) :
    fetch s = .word (memWord s.mem s.pc.toNat) := by
  obtain ⟨r, hr, hrx, hrk⟩ := hx
  obtain ⟨hmis, -⟩ | ⟨-, ⟨hnone, -⟩ | ⟨-, -, -, -, ⟨⟨a, ha, hlo, hhi⟩, -⟩ | ⟨-, hw⟩⟩⟩ := fetch_cases s
  · exact absurd hal hmis
  · have := hnone r hr
    simp [hrx, hrk] at this
  · have := hfresh a ha
    omega
  · exact hw

/-- Steps (3) and (4) of R15 execute the instruction at `pc`. -/
theorem fetchAndRun_eq_exec {s : State} {i : Instr} (h : Fetches s i) : fetchAndRun s = exec i s := by
  obtain ⟨hal, hx, hfresh, hdec⟩ := h
  have hok : decode s.xlen (memWord s.mem s.pc.toNat) = .ok i := decodeBytes_codeBytes_ok hdec
  simp only [fetchAndRun, fetch_eq_word hal hx hfresh, runWord, hok]

/-- What is held off plays no part in the fetch: only `pc`, the platform, memory and the stale bytes do. -/
theorem fetches_holdOff {s : State} {i : Instr} (h : Fetches s i) : Fetches s.holdOff i := h

/-- Without an interrupt a hart that is not waiting goes on to the fetch (00_scope.md R15). -/
theorem runActive_of_no_interrupt {s : State} (h : interruptNow s = none) : runActive s = fetchAndRun s.holdOff := by
  obtain ⟨j, hj, -⟩ | ⟨-, hrun⟩ := runActive_cases s
  · simp [h] at hj
  · exact hrun

/-- A hart that does not go on waiting acts on the sampled state, awake (47_privileged.md R232). -/
theorem step_of_runs {s : State} (h : Runs s) : step s = runActive (awake s) := by
  obtain ⟨hwait, hno, -⟩ | ⟨-, hrun⟩ := step_cases s
  · simp [h hwait] at hno
  · exact hrun

/-- Of the control registers, what precedes the fetch moves `mcycle` alone (60_exceptions.md R345). -/
theorem sameControl_awake_holdOff (s : State) :
    SameControl { s with mcycle := (awake s).mcycle } (awake s).holdOff := by
  constructor <;> rfl

/-- The registers read as before the sampling. -/
theorem sameRegs_awake_holdOff (s : State) : SameRegs s (awake s).holdOff := State.x_congr rfl rfl

/-- Settles O7: the wait, the interrupt choice and the fetch are passed one after the other, each by the lemma that says
when it lets the step go on; what they change is the frame of sampling and of `holdOff`. -/
theorem stepRunsDecodedInstruction : Obligations.StepRunsDecodedInstruction := by
  intro s i hruns hnone hfetch
  have hstep : step s = exec i (awake s).holdOff := by
    rw [step_of_runs hruns, runActive_of_no_interrupt hnone, fetchAndRun_eq_exec (fetches_holdOff hfetch)]
  exact ⟨hstep, sameRegs_awake_holdOff s, fun _ => rfl, sameControl_awake_holdOff s, rfl, rfl, rfl, rfl, rfl, rfl, rfl⟩

end Sys2Proof.Proofs.Scope
end

section
/-! PROOFS. The family `10_state.md`, part 1: what one step can come to, seen from the state before it was sampled. -/

namespace Sys2Proof.Proofs.StepEffects

open Sys2Proof.Machine Sys2Proof.Claims

/-- Every way the state can differ after a step, seen from the state `s` before the inputs are sampled (00_scope.md R15):
a wait that goes on, an interrupt, an exception of the fetch or of an illegal word, an instruction. -/
inductive StepEffect (s : State) : State → Prop
  /-- A hart in WFI that does not wake. -/
  | idle : StepEffect s s.sample.idle
  /-- An interrupt. -/
  | interrupt (i : Interrupt) (h : interruptNow (awake s) = some i) : StepEffect s ((awake s).interrupted i)
  /-- An exception that no instruction raises. -/
  | fetchTrap (e : Exc) (v : Word) (hv : narrow s.xlen v = v ∨ v = s.pc) :
      StepEffect s ((awake s).holdOff.takeException e v)
  /-- An instruction. -/
  | instruction (i : Instr) (t : State) (hf : Fetches (awake s) i) (h : Effect i (awake s).holdOff t) : StepEffect s t

/-- The word `Fetch` reads is the one the bytes at `pc` stand for (20_memory.md R82, R92). -/
theorem decodeBytes_codeBytes {s : State} {i : Instr} (h : decode s.xlen (memWord s.mem s.pc.toNat) = .ok i) :
    decodeBytes s.xlen (codeBytes s) = .ok (i, []) := by
  simp only [memWord] at h
  simp only [decodeBytes, codeBytes, h]

/-- A fetched word that decodes is one the hart fetches, in the sense of the statements. -/
theorem fetches_of_fetch_word {s : State} {w : InstrWord} {i : Instr} (hf : fetch s = .word w)
    (hd : decode s.xlen w = .ok i) : Fetches s i := by
  obtain ⟨-, h⟩ | ⟨hal, ⟨-, h⟩ | ⟨r, hr, hx, hk, ⟨-, h⟩ | ⟨hfresh, h⟩⟩⟩ := fetch_cases s
  · simp [h] at hf
  · simp [h] at hf
  · simp [h] at hf
  · rw [h] at hf
    cases hf
    exact ⟨hal, ⟨r, hr, hx, hk⟩, fun a ha => by have := hfresh a ha; omega, decodeBytes_codeBytes hd⟩

/-- The next states of `exec` are the effects of its instruction. -/
theorem effect_of_exec {i : Instr} {s t : State} (h : exec i s = .next t) : Effect i s t := by
  obtain ⟨u, hu, heff⟩ | href | href := exec_answers i s
  · rw [hu] at h
    cases h
    exact heff
  · simp [href] at h
  · simp [href] at h

/-- A step that answers a next state answers one of the effects. -/
theorem stepEffect_of_step {s t : State} (h : step s = .next t) : StepEffect s t := by
  obtain ⟨-, -, hidle⟩ | ⟨-, hrun⟩ := step_cases s
  · rw [hidle] at h
    cases h
    exact .idle
  change step s = runActive (awake s) at hrun
  rw [hrun] at h
  obtain ⟨i, hi, hint⟩ | ⟨-, hgo⟩ := runActive_cases (awake s)
  · rw [hint] at h
    cases h
    exact .interrupt i hi
  rw [hgo] at h
  obtain ⟨-, hf⟩ | ⟨-, hf⟩ | ⟨-, hf⟩ | ⟨w, hword, hf⟩ := fetchAndRun_cases (awake s).holdOff <;> rw [hf] at h
  · cases h
  · cases h
  · rw [raise_next h]
    exact .fetchTrap _ _ (.inr rfl)
  obtain ⟨i, hdec, hexec⟩ | ⟨e, -, hill⟩ := runWord_cases w (awake s).holdOff
  · rw [hexec] at h
    exact .instruction i t (fetches_of_fetch_word (s := awake s) hword hdec) (effect_of_exec h)
  · rw [hill] at h
    rw [raise_next h]
    exact .fetchTrap _ _ (.inl (narrow_narrow _ _))

end Sys2Proof.Proofs.StepEffects
end

section
/-! PROOFS. The family `10_state.md`, part 2: the invariant of the state. One lemma for each operation of the machine says
that it keeps `State.Inv`; every step is made of those operations. -/

namespace Sys2Proof.Proofs.Invariant

open Sys2Proof.Machine Sys2Proof.Claims Sys2Proof.Proofs.StepEffects

/-! ## The predicates of the invariant on single words -/

/-- Two low bits that are zero, as a remainder (10_state.md R22). -/
theorem low2Zero_iff (v : Word) : low2Zero v ↔ v.toNat % 4 = 0 := by
  rw [← low2_toNat]
  exact ⟨fun h => by rw [h]; rfl, fun h => BitVec.eq_of_toNat_eq h⟩

theorem low2Zero_clearLow2 (v : Word) : low2Zero (clearLow2 v) := by
  rw [low2Zero_iff, clearLow2_toNat]
  omega

theorem low2Zero_narrow {xl : Xlen} {v : Word} (h : v.toNat % 4 = 0) : low2Zero (narrow xl v) := by
  rw [low2Zero_iff, narrow_toNat]
  cases xl <;> simp only [Xlen.bits] <;> omega

/-- A value has no bit outside a mask exactly when each of its bits is one of the mask's. -/
theorem and_not_eq_zero_iff (w m : Word) : w &&& ~~~m = 0 ↔ ∀ k < 64, w.getLsbD k = true → m.getLsbD k = true := by
  constructor
  · intro h k hk hw
    have hbit : (w &&& ~~~m).getLsbD k = false := by rw [h]; exact BitVec.getLsbD_zero
    simpa [hw, hk] using hbit
  · intro h
    apply BitVec.eq_of_getLsbD_eq
    intro k hk
    by_cases hw : w.getLsbD k = true
    · simp [h k hk hw]
    · simp [hw]

/-- A bit of the mask can be set or cleared. -/
theorem setBit_within {m w : Word} {i : Nat} (b : Bool) (h : w &&& ~~~m = 0) (hi : m.getLsbD i = true) :
    setBit w i b &&& ~~~m = 0 := by
  rw [and_not_eq_zero_iff] at h ⊢
  intro k hk hb
  rw [getLsbD_setBit _ _ _ _ hk] at hb
  split at hb
  · next hki => rwa [hki]
  · exact h k hk hb

/-- A masked write stays inside a mask that holds both the old value and the mask of the write. -/
theorem maskedWrite_within {m mask old : Word} (v : Word) (h : old &&& ~~~m = 0) (hm : mask &&& ~~~m = 0) :
    maskedWrite mask old v &&& ~~~m = 0 := by
  rw [and_not_eq_zero_iff] at h hm ⊢
  intro k hk hb
  rw [getLsbD_maskedWrite _ _ _ _ hk] at hb
  split at hb
  · next hmask => exact hm k hk hmask
  · exact h k hk hb

theorem within_trans {w m m' : Word} (h : w &&& ~~~m = 0) (hm : m &&& ~~~m' = 0) : w &&& ~~~m' = 0 := by
  rw [and_not_eq_zero_iff] at h hm ⊢
  exact fun k hk hb => hm k hk (h k hk hb)

theorem and_within (v m : Word) : (v &&& m) &&& ~~~m = 0 := by
  rw [and_not_eq_zero_iff]
  intro k _ hb
  rw [BitVec.getLsbD_and, Bool.and_eq_true] at hb
  exact hb.2

/-- The field MPP (bits 12:11) by its two bits. -/
theorem mpp_legal_iff (w : Word) : w.extractLsb' 11 2 ≠ 2#2 ↔ ¬(w.getLsbD 12 = true ∧ w.getLsbD 11 = false) := by
  rw [not_iff_not]
  constructor
  · intro h
    have h1 : (w.extractLsb' 11 2).getLsbD 1 = true := by rw [h]; rfl
    have h0 : (w.extractLsb' 11 2).getLsbD 0 = false := by rw [h]; rfl
    simp only [BitVec.getLsbD_extractLsb'] at h1 h0
    exact ⟨by simpa using h1, by simpa using h0⟩
  · rintro ⟨h1, h0⟩
    apply BitVec.eq_of_getLsbD_eq
    intro k hk
    interval_cases k
    · simpa using h0
    · simpa using h1

/-- A mode written to MPP is one of its legal values (10_state.md R30). -/
theorem mpp_legal_setMpp (w : Word) (p : Priv) : (setMpp w p).extractLsb' 11 2 ≠ 2#2 := by
  rw [mpp_legal_iff, setMpp, getLsbD_setBit _ _ _ _ (by decide), getLsbD_setBit _ _ _ _ (by decide),
    getLsbD_setBit _ _ _ _ (by decide)]
  cases p <;> simp [setBit]

/-- MPP depends on its own two bits alone. -/
theorem mpp_legal_congr {w w' : Word} (h : w.extractLsb' 11 2 ≠ 2#2) (h11 : w'.getLsbD 11 = w.getLsbD 11)
    (h12 : w'.getLsbD 12 = w.getLsbD 12) : w'.extractLsb' 11 2 ≠ 2#2 := by
  rw [mpp_legal_iff] at h ⊢
  rwa [h11, h12]

/-- What R30 says of the stored `mstatus`: writable bits only, and a legal MPP. -/
abbrev LegalMstatus (w : Word) : Prop := w &&& ~~~mstatusMask = 0 ∧ w.extractLsb' 11 2 ≠ 2#2

theorem legalMstatus_setBit {w : Word} {i : Nat} (b : Bool) (h : LegalMstatus w) (hi : mstatusMask.getLsbD i = true)
    (h11 : i ≠ 11) (h12 : i ≠ 12) : LegalMstatus (setBit w i b) := by
  refine ⟨setBit_within b h.1 hi, mpp_legal_congr h.2 ?_ ?_⟩
  · rw [getLsbD_setBit _ _ _ _ (by decide), if_neg h11.symm]
  · rw [getLsbD_setBit _ _ _ _ (by decide), if_neg h12.symm]

theorem legalMstatus_setMpp {w : Word} (p : Priv) (h : w &&& ~~~mstatusMask = 0) : LegalMstatus (setMpp w p) :=
  ⟨setBit_within _ (setBit_within _ h (by decide)) (by decide), mpp_legal_setMpp w p⟩

theorem legalMstatus_enterM {w : Word} (p : Priv) (h : LegalMstatus w) : LegalMstatus (mstatusEnterM w p) :=
  legalMstatus_setMpp p (setBit_within _ (setBit_within _ h.1 (by decide)) (by decide))

theorem legalMstatus_enterS {w : Word} (p : Priv) (h : LegalMstatus w) : LegalMstatus (mstatusEnterS w p) := by
  have h5 := legalMstatus_setBit (i := bitSPIE) (w.getLsbD bitSIE) h (by decide) (by decide) (by decide)
  have h1 := legalMstatus_setBit (i := bitSIE) false h5 (by decide) (by decide) (by decide)
  exact legalMstatus_setBit (p == .s) h1 (by decide) (by decide) (by decide)

theorem legalMstatus_mret {w : Word} (h : LegalMstatus w) : LegalMstatus (mstatusMret w) :=
  legalMstatus_setMpp .u (setBit_within _ (setBit_within _ h.1 (by decide)) (by decide))

theorem legalMstatus_sret {w : Word} (h : LegalMstatus w) : LegalMstatus (mstatusSret w) := by
  have h1 := legalMstatus_setBit (i := bitSIE) (w.getLsbD bitSPIE) h (by decide) (by decide) (by decide)
  have h5 := legalMstatus_setBit (i := bitSPIE) true h1 (by decide) (by decide) (by decide)
  exact legalMstatus_setBit false h5 (by decide) (by decide) (by decide)

/-- A write to `sstatus` does not reach MPP (R31). -/
theorem legalMstatus_sstatusWrite {w : Word} (v : Word) (h : LegalMstatus w) :
    LegalMstatus (maskedWrite sstatusMask w v) := by
  refine ⟨maskedWrite_within v h.1 (by decide), mpp_legal_congr h.2 ?_ ?_⟩
  · rw [getLsbD_maskedWrite _ _ _ _ (by decide), if_neg (by decide)]
  · rw [getLsbD_maskedWrite _ _ _ _ (by decide), if_neg (by decide)]

/-- A write to `mstatus` leaves a legal MPP, whatever is written (R30). -/
theorem legalMstatus_writeMstatus {s : State} (v : Word) (h : LegalMstatus s.mstatus) :
    LegalMstatus (writeMstatus s v) := by
  have hin := maskedWrite_within v h.1 (mask := mstatusMask) (by decide)
  unfold writeMstatus
  dsimp only
  split
  · exact legalMstatus_setMpp _ hin
  · next hv =>
    refine ⟨hin, ?_⟩
    rw [mpp_legal_iff, getLsbD_maskedWrite _ _ _ _ (by decide), getLsbD_maskedWrite _ _ _ _ (by decide),
      if_pos (by decide), if_pos (by decide)]
    exact hv

theorem isXlen_causeWord (xl : Xlen) (b : Bool) {c : Nat} (hc : c < 32) : isXlen xl (causeWord xl b c) := by
  apply narrow_of_lt
  rw [causeWord_toNat xl b c hc]
  cases xl <;> cases b <;> simp [Xlen.bits] <;> omega

/-- Where a trap goes is an XLEN-bit multiple of 4 (60_exceptions.md R324). -/
theorem trapVector_ok {xl : Xlen} {tvec : Word} (b : Bool) (c : Nat) (h : isXlen xl tvec) :
    isXlen xl (trapVector xl tvec b c) ∧ low2Zero (trapVector xl tvec b c) := by
  rw [low2Zero_iff, isXlen, narrow_eq_self_iff]
  rw [isXlen, narrow_eq_self_iff] at h
  rw [trapVector_toNat]
  cases xl <;> simp only [Xlen.bits] at h ⊢ <;> split <;> omega

/-- The value of a trap vector register after a write has XLEN bits, and bit 1 is 0 (R39, R40). -/
theorem tvecValue_ok (xl : Xlen) (v : Word) : isXlen xl (tvecValue xl v) ∧ (tvecValue xl v).getLsbD 1 = false := by
  refine ⟨?_, getLsbD_setBit _ _ _ _ (by decide)⟩
  apply BitVec.eq_of_getLsbD_eq
  intro k hk
  simp only [tvecValue, getLsbD_narrow, getLsbD_setBit _ _ _ _ hk]
  split <;> simp

/-! ## The operations keep the invariant -/

theorem inv_setX {s : State} (r : RegNum) (v : Word) (h : s.Inv) : (s.setX r v).Inv := by
  obtain ⟨⟨hzero, hregs⟩, hrest⟩ := h
  refine ⟨?_, hrest⟩
  change (writeReg s.xlen s.regs r v).get 0 = 0 ∧ ∀ q, isXlen s.xlen ((writeReg s.xlen s.regs r v).get q)
  unfold writeReg
  split
  · exact ⟨hzero, hregs⟩
  · next hr =>
    have hr0 : r.toNat ≠ 0 := fun h0 => hr (BitVec.eq_of_toNat_eq h0)
    simp only [Vector.get_eq_getElem, Vector.getElem_set] at hzero hregs ⊢
    refine ⟨?_, fun q => ?_⟩
    · rw [if_neg (by simpa using hr0)]
      exact hzero
    · split
      · exact narrow_narrow _ _
      · exact hregs q

theorem inv_retireTo {s : State} {p : Word} (h : s.Inv) (hx : isXlen s.xlen p) (h4 : low2Zero p) :
    (s.retireTo p).Inv := by
  obtain ⟨hregs, -, hrest⟩ := h
  exact ⟨hregs, ⟨hx, h4⟩, hrest⟩

/-- The address of the next instruction is an XLEN-bit multiple of 4 (10_state.md R22). -/
theorem nextPc_ok {s : State} (h : s.PcOk) : isXlen s.xlen s.nextPc ∧ low2Zero s.nextPc := by
  have h4 := (low2Zero_iff _).mp h.2
  refine ⟨narrow_narrow _ _, low2Zero_narrow ?_⟩
  rw [BitVec.toNat_add, show (4 : Word).toNat = 4 from rfl]
  omega

theorem inv_retire {s : State} (h : s.Inv) : s.retire.Inv :=
  inv_retireTo h (nextPc_ok h.2.1).1 (nextPc_ok h.2.1).2

theorem inv_csrRetire {s : State} (c : Csr) (w : Bool) (h : s.Inv) : (csrRetire c w s).Inv := by
  unfold csrRetire
  split
  · exact inv_retire h
  · exact inv_retire h

theorem inv_enterM {s : State} (b : Bool) {c : Nat} {v : Word} (h : s.Inv) (hc : c < 32) (hv : isXlen s.xlen v) :
    (s.enterM b c v).Inv := by
  obtain ⟨hregs, hpc, hmem, hstale, hstatus, ⟨-, hsepc, -, hscause, -, hstval⟩, ⟨hmtvec, hstvec⟩, hmasks⟩ := h
  exact ⟨hregs, trapVector_ok b c hmtvec.1, hmem, hstale, legalMstatus_enterM s.priv hstatus,
    ⟨hpc, hsepc, isXlen_causeWord _ b hc, hscause, hv, hstval⟩, ⟨hmtvec, hstvec⟩, hmasks⟩

theorem inv_enterS {s : State} (b : Bool) {c : Nat} {v : Word} (h : s.Inv) (hc : c < 32) (hv : isXlen s.xlen v) :
    (s.enterS b c v).Inv := by
  obtain ⟨hregs, hpc, hmem, hstale, hstatus, ⟨hmepc, -, hmcause, -, hmtval, -⟩, ⟨hmtvec, hstvec⟩, hmasks⟩ := h
  exact ⟨hregs, trapVector_ok b c hstvec.1, hmem, hstale, legalMstatus_enterS s.priv hstatus,
    ⟨hmepc, hpc, hmcause, isXlen_causeWord _ b hc, hmtval, hv⟩, ⟨hmtvec, hstvec⟩, hmasks⟩

theorem inv_takeException {s : State} (e : Exc) {v : Word} (h : s.Inv) (hv : narrow s.xlen v = v ∨ v = s.pc) :
    (s.takeException e v).Inv := by
  have hx : isXlen s.xlen v := hv.elim id fun hpc => hpc ▸ h.2.1.1
  obtain ⟨-, ht⟩ | ⟨-, ht⟩ := s.takeException_cases e v <;> rw [ht]
  · exact inv_enterS false h e.code_lt hx
  · exact inv_enterM false h e.code_lt hx

theorem inv_takeInterrupt {s : State} (i : Interrupt) (h : s.Inv) : (s.takeInterrupt i).Inv := by
  obtain ⟨-, ht⟩ | ⟨-, ht⟩ := s.takeInterrupt_cases i <;> rw [ht]
  · exact inv_enterS true h i.code_lt (narrow_zero _)
  · exact inv_enterM true h i.code_lt (narrow_zero _)

theorem inv_returnM {s : State} (h : s.Inv) : s.returnM.Inv := by
  obtain ⟨hregs, -, hmem, hstale, hstatus, ⟨hmepc, htraps⟩, hrest⟩ := h
  exact ⟨hregs, hmepc, hmem, hstale, legalMstatus_mret hstatus, ⟨hmepc, htraps⟩, hrest⟩

theorem inv_returnS {s : State} (h : s.Inv) : s.returnS.Inv := by
  obtain ⟨hregs, -, hmem, hstale, hstatus, ⟨hmepc, hsepc, htraps⟩, hrest⟩ := h
  exact ⟨hregs, hsepc, hmem, hstale, legalMstatus_sret hstatus, ⟨hmepc, hsepc, htraps⟩, hrest⟩

theorem inv_memRead {s u : State} {a : Word} {n : Nat} {v : Word} (h : s.Inv) (hr : memRead s a n = .ok (v, u)) :
    u.Inv := by
  obtain ⟨-, r, -, -, ⟨-, -, rfl⟩ | ⟨-, -, rfl⟩⟩ := memRead_ok hr
  · exact h
  · exact h

/-- A store lists bytes of its own `main` region only, and its stale bytes in their order (10_state.md R26, R27). -/
theorem inv_memWrite {s u : State} {a : Word} {n : Nat} {v : Word} (h : s.Inv) (hw : memWrite s a n v = .ok u) :
    u.Inv := by
  obtain ⟨-, r, hr, -, ⟨hk, rfl⟩ | ⟨-, rfl⟩⟩ := memWrite_ok hw
  · obtain ⟨hregs, hpc, ⟨hwf, hmain⟩, hstale, hrest⟩ := h
    refine ⟨hregs, hpc, ⟨writeBytes_wf _ _ _ hwf, fun p hp => ?_⟩, ?_, hrest⟩
    · obtain ⟨hlo, hhi⟩ | hold := mem_writeBytes hp
      · exact isMain_of_regionAt hr hk hlo hhi
      · exact hmain p hold
    · change (if r.x then staleAdd s.staleFetch a.toNat n else s.staleFetch).Pairwise fun x y => x < y
      split
      · exact staleAdd_sorted _ _ hstale
      · exact hstale
  · exact h

/-! ## The write rules of the control registers keep the invariant -/

/-- A write to `satp` that is not refused changes nothing (10_state.md R46). -/
theorem csrWrite_satp_ok {v : Word} {s u : State} (h : csrWrite .satp v s = .ok u) : u = s := by
  simp only [csrWrite] at h
  split at h <;> cases h
  rfl

theorem mstatusOk_csrWrite {c : Csr} {v : Word} {s u : State} (h : s.MstatusOk) (hw : csrWrite c v s = .ok u) :
    u.MstatusOk := by
  cases c
  case satp => rwa [csrWrite_satp_ok hw]
  case mstatus => cases hw; exact legalMstatus_writeMstatus v h
  case sstatus => cases hw; exact legalMstatus_sstatusWrite v h
  all_goals cases hw; exact h

theorem trapRegsOk_csrWrite {c : Csr} {v : Word} {s u : State} (h : s.TrapRegsOk) (hw : csrWrite c v s = .ok u) :
    u.TrapRegsOk := by
  have hx : isXlen s.xlen (narrow s.xlen v) := narrow_narrow _ _
  have hepc : isXlen s.xlen (clearLow2 (narrow s.xlen v)) ∧ low2Zero (clearLow2 (narrow s.xlen v)) :=
    ⟨narrow_clearLow2 _ _ hx, low2Zero_clearLow2 _⟩
  obtain ⟨hmepc, hsepc, hmcause, hscause, hmtval, hstval⟩ := h
  cases c
  case satp => rw [csrWrite_satp_ok hw]; exact ⟨hmepc, hsepc, hmcause, hscause, hmtval, hstval⟩
  case mepc => cases hw; exact ⟨hepc, hsepc, hmcause, hscause, hmtval, hstval⟩
  case sepc => cases hw; exact ⟨hmepc, hepc, hmcause, hscause, hmtval, hstval⟩
  case mcause => cases hw; exact ⟨hmepc, hsepc, hx, hscause, hmtval, hstval⟩
  case scause => cases hw; exact ⟨hmepc, hsepc, hmcause, hx, hmtval, hstval⟩
  case mtval => cases hw; exact ⟨hmepc, hsepc, hmcause, hscause, hx, hstval⟩
  case stval => cases hw; exact ⟨hmepc, hsepc, hmcause, hscause, hmtval, hx⟩
  all_goals cases hw; exact ⟨hmepc, hsepc, hmcause, hscause, hmtval, hstval⟩

theorem vectorsOk_csrWrite {c : Csr} {v : Word} {s u : State} (h : s.VectorsOk) (hw : csrWrite c v s = .ok u) :
    u.VectorsOk := by
  obtain ⟨hmtvec, hstvec⟩ := h
  cases c
  case satp => rw [csrWrite_satp_ok hw]; exact ⟨hmtvec, hstvec⟩
  case mtvec => cases hw; exact ⟨tvecValue_ok _ v, hstvec⟩
  case stvec => cases hw; exact ⟨hmtvec, tvecValue_ok _ v⟩
  all_goals cases hw; exact ⟨hmtvec, hstvec⟩

theorem masksOk_csrWrite {c : Csr} {v : Word} {s u : State} (h : s.MasksOk) (hw : csrWrite c v s = .ok u) :
    u.MasksOk := by
  have hx : isXlen s.xlen (narrow s.xlen v) := narrow_narrow _ _
  obtain ⟨hmedeleg, hmideleg, hmie, hmcounteren, hscounteren, hmscratch, hsscratch⟩ := h
  cases c
  case satp =>
    rw [csrWrite_satp_ok hw]
    exact ⟨hmedeleg, hmideleg, hmie, hmcounteren, hscounteren, hmscratch, hsscratch⟩
  case medeleg =>
    cases hw
    exact ⟨and_within _ _, hmideleg, hmie, hmcounteren, hscounteren, hmscratch, hsscratch⟩
  case mideleg =>
    cases hw
    exact ⟨hmedeleg, and_within _ _, hmie, hmcounteren, hscounteren, hmscratch, hsscratch⟩
  case mie =>
    cases hw
    exact ⟨hmedeleg, hmideleg, and_within _ _, hmcounteren, hscounteren, hmscratch, hsscratch⟩
  case sie =>
    cases hw
    have hmask : smask s &&& ~~~(0xAAA : Word) = 0 := within_trans (and_within s.mideleg sInterruptMask) (by decide)
    exact ⟨hmedeleg, hmideleg, maskedWrite_within v hmie hmask, hmcounteren, hscounteren, hmscratch, hsscratch⟩
  case mcounteren =>
    cases hw
    exact ⟨hmedeleg, hmideleg, hmie, and_within _ _, hscounteren, hmscratch, hsscratch⟩
  case scounteren =>
    cases hw
    exact ⟨hmedeleg, hmideleg, hmie, hmcounteren, and_within _ _, hmscratch, hsscratch⟩
  case mscratch =>
    cases hw
    exact ⟨hmedeleg, hmideleg, hmie, hmcounteren, hscounteren, hx, hsscratch⟩
  case sscratch =>
    cases hw
    exact ⟨hmedeleg, hmideleg, hmie, hmcounteren, hscounteren, hmscratch, hx⟩
  all_goals cases hw; exact ⟨hmedeleg, hmideleg, hmie, hmcounteren, hscounteren, hmscratch, hsscratch⟩

/-- Every write rule of a control register keeps the invariant (10_state.md R30-R49). -/
theorem inv_csrWrite {c : Csr} {v : Word} {s u : State} (h : s.Inv) (hw : csrWrite c v s = .ok u) : u.Inv := by
  obtain ⟨hregs, hpc, hmem, hstale, hstatus, htraps, hvecs, hmasks⟩ := h
  refine ⟨?_, ?_, ?_, ?_, mstatusOk_csrWrite hstatus hw, trapRegsOk_csrWrite htraps hw, vectorsOk_csrWrite hvecs hw,
    masksOk_csrWrite hmasks hw⟩
  · rwa [State.RegsOk, State.xlen, csrWrite_regs hw, csrWrite_platform hw]
  · rwa [State.PcOk, State.xlen, csrWrite_pc hw, csrWrite_platform hw]
  · rwa [State.MemOk, csrWrite_mem hw, csrWrite_platform hw]
  · rwa [State.StaleOk, csrWrite_staleFetch hw]

/-! ## Instructions and steps keep the invariant -/

/-- Every effect of an instruction is made of operations that keep the invariant. -/
theorem inv_effect {i : Instr} {s t : State} (h : s.Inv) (he : Effect i s t) : t.Inv := by
  cases he with
  | trap e v hv => exact inv_takeException e h hv
  | write rd v => exact inv_retire (inv_setX rd v h)
  | goOn => exact inv_retire h
  | jump p hp hn => exact inv_retireTo h hn ((low2Zero_iff p).mpr hp)
  | link rd p hp hn => exact inv_retireTo (inv_setX rd _ h) hn ((low2Zero_iff p).mpr hp)
  | load a n rd v w u hr => exact inv_retire (inv_setX rd w (inv_memRead h hr))
  | store rs1 rs2 imm n u hi hw => exact inv_retire (inv_memWrite h hw)
  | csrReads a c rd v hc => exact inv_csrRetire c false (inv_setX rd v h)
  | csrWrites a c rd v new u hc hw => exact inv_csrRetire c true (inv_setX rd v (inv_csrWrite h hw))
  | fence pred succ => exact inv_retire (s := { s with ioHistory := s.ioHistory ++ [IoEvent.fence pred succ] }) h
  | fenceI =>
    obtain ⟨hregs, hpc, hmem, -, hrest⟩ := h
    exact inv_retire (s := { s with staleFetch := [] }) ⟨hregs, hpc, hmem, List.Pairwise.nil, hrest⟩
  | wfi hp => exact inv_retire (s := { s with wfiWait := true }) h
  | mret hi hp => exact inv_returnM h
  | sret hi hp => exact inv_returnS h

/-- No effect of an instruction changes the parameters of the machine. -/
theorem platform_effect {i : Instr} {s t : State} (he : Effect i s t) : t.platform = s.platform := by
  cases he with
  | load a n rd v w u hr =>
    obtain ⟨-, r, -, -, ⟨-, -, rfl⟩ | ⟨-, -, rfl⟩⟩ := memRead_ok hr
    · rfl
    · rfl
  | store rs1 rs2 imm n u hi hw =>
    obtain ⟨-, r, -, -, ⟨-, rfl⟩ | ⟨-, rfl⟩⟩ := memWrite_ok hw
    · rfl
    · rfl
  | csrWrites a c rd v new u hc hw =>
    rw [csrRetire_platform, State.setX_platform]
    exact csrWrite_platform hw
  | trap e v hv => exact s.takeException_platform e v
  | csrReads a c rd v hc => exact csrRetire_platform c false _
  | _ => rfl

theorem inv_stepEffect {s t : State} (h : s.Inv) (he : StepEffect s t) : t.Inv := by
  cases he with
  | idle => exact h
  | interrupt i hi => exact inv_takeInterrupt (s := { awake s with postponed := [] }) i h
  | fetchTrap e v hv => exact inv_takeException (s := (awake s).holdOff) e h hv
  | instruction i t hf he => exact inv_effect (s := (awake s).holdOff) h he

theorem platform_stepEffect {s t : State} (he : StepEffect s t) : t.platform = s.platform := by
  cases he with
  | idle => rfl
  | interrupt i hi => exact State.takeInterrupt_platform _ i
  | fetchTrap e v hv => exact State.takeException_platform _ e v
  | instruction i t hf he => exact platform_effect (s := (awake s).holdOff) he

/-- Settles O14: a step is one of its effects, and each of them is made of operations that keep the invariant. -/
theorem stepKeepsStateInvariant : Obligations.StepKeepsStateInvariant := by
  intro s t hinv hstep
  have heff := stepEffect_of_step hstep
  exact ⟨inv_stepEffect hinv heff, platform_stepEffect heff⟩

/-- Settles O15: every component of the invariant is evaluated on the reset state. -/
theorem resetMeetsStateInvariant : Obligations.ResetMeetsStateInvariant := by
  refine ⟨⟨?_, ?_, ?_, ?_, ?_, ?_, ?_, ?_⟩, ?_⟩ <;> decide

end Sys2Proof.Proofs.Invariant
end

section
/-! PROOFS. The family `10_state.md`, part 3: the privilege mode. A step that is neither a trap nor a return keeps it; a trap
never lowers it and a return never raises it (60_exceptions.md R340). -/

namespace Sys2Proof.Proofs.Privilege

open Sys2Proof.Machine Sys2Proof.Claims Sys2Proof.Proofs.StepEffects

/-- An instruction takes a trap, returns from one, or keeps the mode. -/
theorem effect_priv_cases {i : Instr} {s t : State} (he : Effect i s t) :
    (∃ e v, t = s.takeException e v) ∨ (i = .mret ∧ s.priv = .m) ∨ (i = .sret ∧ s.priv ≠ .u ∧ t.priv ≠ .m) ∨
      t.priv = s.priv := by
  cases he with
  | trap e v hv => exact .inl ⟨e, v, rfl⟩
  | mret hi hp => exact .inr (.inl ⟨hi, hp⟩)
  | sret hi hp =>
    refine .inr (.inr (.inl ⟨hi, hp, ?_⟩))
    change sppPriv s.mstatus ≠ .m
    unfold sppPriv
    split <;> decide
  | load a n rd v w u hr =>
    obtain ⟨-, r, -, -, ⟨-, -, rfl⟩ | ⟨-, -, rfl⟩⟩ := memRead_ok hr <;> exact .inr (.inr (.inr rfl))
  | store rs1 rs2 imm n u hi hw =>
    obtain ⟨-, r, -, -, ⟨-, rfl⟩ | ⟨-, rfl⟩⟩ := memWrite_ok hw <;> exact .inr (.inr (.inr rfl))
  | csrReads a c rd v hc => exact .inr (.inr (.inr (csrRetire_priv c false _)))
  | csrWrites a c rd v new u hc hw =>
    exact .inr (.inr (.inr (by rw [csrRetire_priv, State.setX_priv, csrWrite_priv hw])))
  | _ => exact .inr (.inr (.inr rfl))

/-- The step ended in a trap: an interrupt that is takeable, or an exception. -/
def TookTrap (s t : State) : Prop :=
  (∃ i, takeable (awake s) i = true ∧ t = (awake s).interrupted i) ∨ ∃ e v, t = (awake s).holdOff.takeException e v

/-- A step takes a trap, runs a return, or keeps the mode. -/
theorem step_priv_cases {s t : State} (h : step s = .next t) :
    TookTrap s t ∨ (Fetches (awake s) .mret ∧ s.priv = .m) ∨
      (Fetches (awake s) .sret ∧ s.priv ≠ .u ∧ t.priv ≠ .m) ∨ t.priv = s.priv := by
  cases stepEffect_of_step h with
  | idle => exact .inr (.inr (.inr rfl))
  | interrupt i hi => exact .inl (.inl ⟨i, (interruptNow_some hi).2, rfl⟩)
  | fetchTrap e v hv => exact .inl (.inr ⟨e, v, rfl⟩)
  | instruction i t hf he =>
    obtain ⟨e, v, ht⟩ | ⟨rfl, hp⟩ | ⟨rfl, hp, hnm⟩ | hkeep := effect_priv_cases he
    · exact .inl (.inr ⟨e, v, ht⟩)
    · exact .inr (.inl ⟨hf, hp⟩)
    · exact .inr (.inr (.inl ⟨hf, hp, hnm⟩))
    · exact .inr (.inr (.inr hkeep))

/-- A delegated interrupt is not takeable in M-mode (60_exceptions.md R332). -/
theorem takeable_delegated_priv {s : State} {i : Interrupt} (h : takeable s i = true)
    (hd : s.mideleg.getLsbD i.code = true) : s.priv ≠ .m := by
  intro hp
  simp [takeable, hd, hp] at h

/-- Taking a takeable interrupt does not lower the mode. -/
theorem interrupted_level {s : State} {i : Interrupt} (h : takeable s i = true) :
    s.priv.level ≤ (s.interrupted i).priv.level := by
  unfold State.interrupted
  obtain ⟨hd, ht⟩ | ⟨-, ht⟩ := State.takeInterrupt_cases { s with postponed := [] } i <;> rw [ht]
  · have hp := takeable_delegated_priv h hd
    cases hs : s.priv <;> simp_all [Priv.level]
  · cases s.priv <;> simp [Priv.level]

/-- A trap does not lower the mode (60_exceptions.md R321). -/
theorem TookTrap.level_le {s t : State} (h : TookTrap s t) : s.priv.level ≤ t.priv.level := by
  obtain ⟨i, hi, rfl⟩ | ⟨e, v, rfl⟩ := h
  · exact interrupted_level hi
  · exact (awake s).holdOff.takeException_level e v

/-- The exception program counter of the mode an exception goes to takes `pc` (60_exceptions.md R322, R323). -/
theorem takeException_epc (s : State) (e : Exc) (v : Word) :
    (s.takeException e v).priv = .m ∧ (s.takeException e v).mepc = s.pc ∨
      (s.takeException e v).priv = .s ∧ (s.takeException e v).sepc = s.pc := by
  obtain ⟨-, ht⟩ | ⟨-, ht⟩ := s.takeException_cases e v <;> rw [ht]
  · exact .inr ⟨rfl, rfl⟩
  · exact .inl ⟨rfl, rfl⟩

/-- The exception program counter of the mode an interrupt goes to takes `pc` (60_exceptions.md R322, R323). -/
theorem takeInterrupt_epc (s : State) (i : Interrupt) :
    (s.takeInterrupt i).priv = .m ∧ (s.takeInterrupt i).mepc = s.pc ∨
      (s.takeInterrupt i).priv = .s ∧ (s.takeInterrupt i).sepc = s.pc := by
  obtain ⟨-, ht⟩ | ⟨-, ht⟩ := s.takeInterrupt_cases i <;> rw [ht]
  · exact .inr ⟨rfl, rfl⟩
  · exact .inl ⟨rfl, rfl⟩

/-- What a step that takes a trap leaves: the old `pc` in the epc of the new mode, registers, bytes and `minstret` as they
were, no wait (60_exceptions.md R320). -/
theorem TookTrap.frame {s t : State} (h : TookTrap s t) :
    (t.priv = .m ∧ t.mepc = s.pc ∨ t.priv = .s ∧ t.sepc = s.pc) ∧ SameRegs s t ∧ SameBytes s t ∧
      t.minstret = s.minstret ∧ t.wfiWait = false := by
  obtain ⟨i, -, rfl⟩ | ⟨e, v, rfl⟩ := h
  · unfold State.interrupted
    refine ⟨takeInterrupt_epc _ i, State.takeInterrupt_x _ i, fun a => ?_, State.takeInterrupt_minstret _ i,
      State.takeInterrupt_wfiWait _ i⟩
    rw [State.takeInterrupt_mem]
    rfl
  · refine ⟨takeException_epc _ e v, State.takeException_x _ e v, fun a => ?_, State.takeException_minstret _ e v,
      State.takeException_wfiWait _ e v⟩
    rw [State.takeException_mem]
    rfl

/-- M-mode is the highest mode, and SRET, legal from S-mode on, does not lead to it (10_state.md R24). -/
theorem level_le_of_sret {p q : Priv} (hp : p ≠ .u) (hq : q ≠ .m) : q.level ≤ p.level := by
  cases p <;> cases q <;> simp_all [Priv.level]

theorem level_le_m (q : Priv) : q.level ≤ Priv.m.level := by cases q <;> decide

/-- Settles O18: of the four things a step can do to the mode, only the two returns lower it. -/
theorem onlyReturnsLowerPrivilege : Obligations.OnlyReturnsLowerPrivilege := by
  intro s t hstep hlt
  obtain htrap | hmret | ⟨hsret, -, -⟩ | hkeep := step_priv_cases hstep
  · exact absurd htrap.level_le (Nat.not_le_of_lt hlt)
  · exact .inl hmret
  · exact .inr hsret
  · rw [hkeep] at hlt
    exact absurd hlt (Nat.lt_irrefl _)

/-- Settles O19: of the four things a step can do to the mode, only a trap raises it. -/
theorem onlyTrapsRaisePrivilege : Obligations.OnlyTrapsRaisePrivilege := by
  intro s t hstep hlt
  obtain htrap | ⟨-, hm⟩ | ⟨-, hnu, hnm⟩ | hkeep := step_priv_cases hstep
  · exact htrap.frame
  · rw [hm] at hlt
    exact absurd (level_le_m t.priv) (Nat.not_le_of_lt hlt)
  · exact absurd (level_le_of_sret hnu hnm) (Nat.not_le_of_lt hlt)
  · rw [hkeep] at hlt
    exact absurd hlt (Nat.lt_irrefl _)

end Sys2Proof.Proofs.Privilege
end

section
/-! PROOFS. The family `10_state.md`, part 4: the address map of the control registers (R29) and the access check. -/

namespace Sys2Proof.Proofs.CsrMap

open Sys2Proof.Machine Sys2Proof.Claims

/-! ## The rows of the map -/

/-- Row `p` of the map stands at its register's address, and the register exists on a machine of this XLEN. -/
def RowOk (xl : Xlen) (p : Nat × Csr) : Prop := p.1 = addressOf p.2 ∧ existsOn xl p.2

/-- The rows of an hpm family are its counters 3 to 31. -/
theorem mem_hpmRows {base : Nat} {mk : Nat → Csr} {p : Nat × Csr} :
    p ∈ hpmRows base mk ↔ ∃ n, 3 ≤ n ∧ n ≤ 31 ∧ p = (base + (n - 3), mk n) := by
  simp only [hpmRows, List.mem_map, List.mem_range]
  constructor
  · rintro ⟨k, hk, rfl⟩
    exact ⟨k + 3, by omega, by omega, rfl⟩
  · rintro ⟨n, h3, h31, rfl⟩
    exact ⟨n - 3, by omega, by rw [Nat.sub_add_cancel h3]⟩

/-- An address that a list of rows answers with a register stands in it beside that register. -/
theorem mem_of_lookup {l : List (Nat × Csr)} {a : Nat} {c : Csr} (h : l.lookup a = some c) : (a, c) ∈ l := by
  induction l with
  | nil => cases h
  | cons p rest ih =>
    obtain ⟨k, d⟩ := p
    by_cases hk : a = k
    · subst hk
      simp only [List.lookup_cons_self, Option.some.injEq] at h
      simp [h]
    · rw [List.lookup_cons, beq_false_of_ne hk] at h
      exact List.mem_cons_of_mem _ (ih h)

theorem rowOk_of_mem_csrRowsBoth {xl : Xlen} {p : Nat × Csr} (h : p ∈ csrRowsBoth) : RowOk xl p := by
  simp only [csrRowsBoth, List.mem_append, mem_hpmRows] at h
  obtain (((hlow | hhigh) | ⟨n, h3, h31, rfl⟩) | ⟨n, h3, h31, rfl⟩) | ⟨n, h3, h31, rfl⟩ := h
  · fin_cases hlow <;> exact ⟨rfl, trivial⟩
  · fin_cases hhigh <;> exact ⟨rfl, trivial⟩
  · exact ⟨by simp only [addressOf]; omega, h3, h31⟩
  · exact ⟨by simp only [addressOf]; omega, h3, h31⟩
  · exact ⟨by simp only [addressOf]; omega, h3, h31⟩

theorem rowOk_of_mem_csrRows32 {p : Nat × Csr} (h : p ∈ csrRows32) : RowOk .rv32 p := by
  simp only [csrRows32, List.mem_append, mem_hpmRows] at h
  obtain (hfixed | ⟨n, h3, h31, rfl⟩) | ⟨n, h3, h31, rfl⟩ := h
  · fin_cases hfixed <;> exact ⟨rfl, rfl⟩
  · exact ⟨by simp only [addressOf]; omega, rfl, h3, h31⟩
  · exact ⟨by simp only [addressOf]; omega, rfl, h3, h31⟩

/-- The map answers an address with a register of that address only. -/
theorem rowOk_of_csrAt {xl : Xlen} {a : BitVec 12} {c : Csr} (h : csrAt xl a = some c) : RowOk xl (a.toNat, c) := by
  cases xl with
  | rv32 =>
    obtain hboth | h32 := List.mem_append.mp (mem_of_lookup h)
    · exact rowOk_of_mem_csrRowsBoth hboth
    · exact rowOk_of_mem_csrRows32 h32
  | rv64 => exact rowOk_of_mem_csrRowsBoth (mem_of_lookup h)

/-- The rows a machine of this XLEN has. -/
def csrRowsOf (xl : Xlen) : List (Nat × Csr) :=
  match xl with
  | .rv32 => csrRowsBoth ++ csrRows32
  | .rv64 => csrRowsBoth

theorem csrAt_eq (xl : Xlen) (a : BitVec 12) : csrAt xl a = (csrRowsOf xl).lookup a.toNat := by cases xl <;> rfl

/-- Each counter of an hpm family that is on every machine is found at its address. -/
theorem lookup_hpm (xl : Xlen) : ∀ n ≤ 31, 3 ≤ n →
    (csrRowsOf xl).lookup (addressOf (.mhpmevent n)) = some (.mhpmevent n) ∧
      (csrRowsOf xl).lookup (addressOf (.mhpmcounter n)) = some (.mhpmcounter n) ∧
      (csrRowsOf xl).lookup (addressOf (.hpmcounter n)) = some (.hpmcounter n) := by
  cases xl <;> decide

/-- Each counter of an hpm family of high halves is found at its address on RV32. -/
theorem lookup_hpm_high : ∀ n ≤ 31, 3 ≤ n →
    (csrRowsOf .rv32).lookup (addressOf (.mhpmcounterh n)) = some (.mhpmcounterh n) ∧
      (csrRowsOf .rv32).lookup (addressOf (.hpmcounterh n)) = some (.hpmcounterh n) := by
  decide

/-- Every register that exists is found at its address. -/
theorem lookup_addressOf {xl : Xlen} {c : Csr} (h : existsOn xl c) : (csrRowsOf xl).lookup (addressOf c) = some c := by
  cases c
  case mhpmevent n => exact (lookup_hpm xl n h.2 h.1).1
  case mhpmcounter n => exact (lookup_hpm xl n h.2 h.1).2.1
  case hpmcounter n => exact (lookup_hpm xl n h.2 h.1).2.2
  case mhpmcounterh n =>
    obtain ⟨rfl, h3, h31⟩ := h
    exact (lookup_hpm_high n h31 h3).1
  case hpmcounterh n =>
    obtain ⟨rfl, h3, h31⟩ := h
    exact (lookup_hpm_high n h31 h3).2
  case mcycleh | minstreth | cycleh | timeh | instreth => cases h; rfl
  all_goals cases xl <;> rfl

/-- Settles O41: the map answers with registers at their own address only, and finds every one that exists. -/
theorem csrAddressesAreTheTables : Obligations.CsrAddressesAreTheTables := by
  intro xl a c
  refine ⟨rowOk_of_csrAt, ?_⟩
  rintro ⟨ha, hex⟩
  rw [csrAt_eq, ha, lookup_addressOf hex]

/-! ## The access check (45_csr.md R200) -/

theorem csrLevel_eq (a : BitVec 12) : csrLevel a = a.toNat / 256 % 4 := by
  simp [csrLevel, BitVec.extractLsb'_toNat, Nat.shiftRight_eq_div_pow]

theorem csrReadOnly_iff (a : BitVec 12) : csrReadOnly a = true ↔ a.toNat / 1024 = 3 := by
  have ha := a.isLt
  rw [csrReadOnly, beq_iff_eq, ← BitVec.toNat_inj, BitVec.extractLsb'_toNat, Nat.shiftRight_eq_div_pow]
  simp only [BitVec.toNat_ofNat]
  omega

theorem isCounterShadow_iff (a : BitVec 12) : isCounterShadow a = true ↔
    (0xC00 ≤ a.toNat ∧ a.toNat ≤ 0xC1F ∨ 0xC80 ≤ a.toNat ∧ a.toNat ≤ 0xC9F) := by
  simp [isCounterShadow]

/-- The counter-enable gate, mode by mode (10_state.md R45). -/
theorem counterEnabled_iff (s : State) (a : BitVec 12) : counterEnabled s a = true ↔
    (s.priv = .s → s.mcounteren.getLsbD (a.toNat % 32) = true) ∧
      (s.priv = .u → s.mcounteren.getLsbD (a.toNat % 32) = true ∧ s.scounteren.getLsbD (a.toNat % 32) = true) := by
  have hi : (a.extractLsb' 0 5).toNat = a.toNat % 32 := by simp [BitVec.extractLsb'_toNat]
  unfold counterEnabled
  rw [hi]
  cases s.priv <;> simp

/-- The check lets an access through to an implemented register exactly under the conditions of R200. -/
theorem csrPasses_iff (s : State) (a : BitVec 12) (w : Bool) :
    CsrPasses s a w ↔ (csrAt s.xlen a).isSome = true ∧ csrAllowed s a w = true := by
  have hro : (!(w && csrReadOnly a)) = true ↔ ¬(w = true ∧ a.toNat / 1024 = 3) := by
    rw [← csrReadOnly_iff, Bool.not_eq_true', ← Bool.and_eq_true, Bool.not_eq_true]
  have htvm : (!(decide (a = 0x180#12) && decide (s.priv = .s) && s.mstatus.getLsbD bitTVM)) = true ↔
      ¬(a.toNat = 0x180 ∧ s.priv = .s ∧ s.mstatus.getLsbD 20 = true) := by
    have ha : a = 0x180#12 ↔ a.toNat = 0x180 := by rw [← BitVec.toNat_inj]; rfl
    rw [← ha, Bool.not_eq_true', ← Bool.not_eq_true, Bool.and_eq_true, Bool.and_eq_true, decide_eq_true_eq,
      decide_eq_true_eq, and_assoc]
  have hgate : (!isCounterShadow a || counterEnabled s a) = true ↔
      (isCounterShadow a = true → counterEnabled s a = true) := by
    cases isCounterShadow a <;> simp
  rw [CsrPasses, csrAllowed, Bool.and_eq_true, Bool.and_eq_true, Bool.and_eq_true, decide_eq_true_eq, hro, htvm, hgate,
    csrLevel_eq, isCounterShadow_iff, counterEnabled_iff, and_assoc, and_assoc]

/-- Where the check passes, it answers the register at the address. -/
theorem csrCheck_of_passes {s : State} {a : BitVec 12} {w : Bool} {c : Csr} (h : CsrPasses s a w)
    (hc : csrAt s.xlen a = some c) : csrCheck s a w = some c :=
  csrCheck_some.mpr ⟨((csrPasses_iff s a w).mp h).2, hc⟩

/-! ## The refused write to `satp` (R46) -/

theorem csrAt_satp (xl : Xlen) : csrAt xl 0x180 = some .satp := by cases xl <;> rfl

/-- A CSR instruction whose new value for `satp` is not 0 is refused. -/
theorem csrOp_satp_refused {inst : Instr} {rd : RegNum} {f : Word → Word} {s : State} (h : CsrPasses s 0x180 true)
    (hv : narrow s.xlen (f (csrModifyBase .satp s)) ≠ 0) : csrOp inst rd 0x180 true f s = .refused .satpNonZero := by
  have hcheck : csrCheck s 0x180 true = some .satp := csrCheck_of_passes h (csrAt_satp s.xlen)
  have hwrite : csrWrite .satp (f (csrModifyBase .satp s)) s = .error .satpNonZero := by
    rw [csrWrite, if_neg hv]
  simp only [csrOp, hcheck, if_true, hwrite]

/-- `satp` reads 0, also for the set and clear forms. -/
theorem csrModifyBase_satp (s : State) : csrModifyBase .satp s = 0#64 := narrow_zero _

/-- The immediate of the CSR instructions as a number: 5 bits fit in every XLEN (30_encoding.md R114). -/
theorem narrow_uimm5_toNat (s : State) (r : RegNum) : (narrow s.xlen (uimm5 s r)).toNat = r.toNat := by
  have hr := r.isLt
  have hbits : 2 ^ 5 ≤ 2 ^ s.xlen.bits := Nat.pow_le_pow_right (by decide) (by cases s.xlen <;> decide)
  rw [uimm5, zextX, narrow_narrow, narrow_toNat, BitVec.toNat_setWidth, Nat.mod_eq_of_lt (a := r.toNat) (by omega),
    Nat.mod_eq_of_lt (by omega)]

theorem narrow_uimm5_ne_zero {s : State} {r : RegNum} (h : r ≠ 0#5) : narrow s.xlen (uimm5 s r) ≠ 0 := by
  intro h0
  refine h (BitVec.eq_of_toNat_eq ?_)
  rw [← narrow_uimm5_toNat s r, h0]
  rfl

/-! What `exec` calls for the four instructions that can write a non-zero value to `satp`. -/

theorem exec_csrrw_eq (rd r : RegNum) (a : BitVec 12) (s : State) :
    exec (.csrrw rd a r) s = csrOp (.csrrw rd a r) rd a true (fun _ => s.x r) s := rfl

theorem exec_csrrs_eq (rd r : RegNum) (a : BitVec 12) (s : State) :
    exec (.csrrs rd a r) s = csrOp (.csrrs rd a r) rd a (r != 0#5) (fun t => t ||| s.x r) s := rfl

theorem exec_csrrwi_eq (rd r : RegNum) (a : BitVec 12) (s : State) :
    exec (.csrrwi rd a r) s = csrOp (.csrrwi rd a r) rd a true (fun _ => uimm5 s r) s := rfl

theorem exec_csrrsi_eq (rd r : RegNum) (a : BitVec 12) (s : State) :
    exec (.csrrsi rd a r) s = csrOp (.csrrsi rd a r) rd a (r != 0#5) (fun t => t ||| uimm5 s r) s := rfl

/-- Settles O43: each of the four instructions passes the check with a new value that is not 0; the set forms add their bits
to the 0 that `satp` reads. -/
theorem satpNonZeroIsRefused : Obligations.SatpNonZeroIsRefused := by
  intro s rd r hpass
  rw [exec_csrrw_eq, exec_csrrs_eq, exec_csrrwi_eq, exec_csrrsi_eq]
  refine ⟨fun hx => ?_, fun hr => ?_⟩
  · have hr : (r != 0#5) = true := by
      rw [bne_iff_ne]
      rintro rfl
      exact hx s.x_zero
    have hnew : narrow s.xlen (s.x r) ≠ 0 := by rwa [State.narrow_x]
    rw [hr]
    exact ⟨csrOp_satp_refused hpass hnew, csrOp_satp_refused hpass (by rwa [csrModifyBase_satp, BitVec.zero_or])⟩
  · have hnew := narrow_uimm5_ne_zero (s := s) hr
    rw [bne_iff_ne.mpr hr]
    exact ⟨csrOp_satp_refused hpass hnew, csrOp_satp_refused hpass (by rwa [csrModifyBase_satp, BitVec.zero_or])⟩

end Sys2Proof.Proofs.CsrMap
end

section
/-! PROOFS. The family `10_state.md`, part 5: what the registers read, what a write leaves in them, and the reset state. -/

namespace Sys2Proof.Proofs.RegisterValues

open Sys2Proof.Machine Sys2Proof.Claims Sys2Proof.Proofs.Invariant

/-! ## Words under a mask -/

/-- What fits under a mask of 32 bits is an XLEN-bit value. -/
theorem narrow_and_mask (xl : Xlen) {m : Word} (v : Word) (hm : m.toNat < 2 ^ 32) : narrow xl (v &&& m) = v &&& m := by
  apply narrow_of_lt
  have hle : (v &&& m).toNat ≤ m.toNat := by rw [BitVec.toNat_and]; exact Nat.and_le_right
  exact Nat.lt_of_le_of_lt hle (Nat.lt_of_lt_of_le hm (Nat.pow_le_pow_right (by decide) (by cases xl <;> decide)))

/-- Clearing a bit is masking it out. -/
theorem setBit_false (v : Word) (i : Nat) : setBit v i false = v &&& ~~~(1#64 <<< i) := rfl

/-- Clearing bits [1:0] by a mask (10_state.md R42). -/
theorem clearLow2_eq_and (v : Word) : clearLow2 v = v &&& ~~~3 := by
  rw [clearLow2, setBit_false, setBit_false, BitVec.and_assoc]
  rfl

/-- A trap vector register after a write: bit 1 is cleared (10_state.md R39, R40). -/
theorem tvecValue_eq_and (xl : Xlen) (v : Word) : tvecValue xl v = narrow xl v &&& ~~~2 := setBit_false _ 1

/-- A masked write of the low half joins the old high half with the new low half (10_state.md R47). -/
theorem setLowHalf_eq_append (old v : Word) : setLowHalf old v = old.extractLsb' 32 32 ++ v.extractLsb' 0 32 := by
  have hmask : ∀ k < 64, (0x00000000FFFFFFFF : Word).getLsbD k = decide (k < 32) := by decide
  apply BitVec.eq_of_getLsbD_eq
  intro k hk
  rw [setLowHalf, getLsbD_maskedWrite _ _ _ _ hk, hmask k hk, BitVec.getLsbD_append]
  by_cases h : k < 32
  · simp [h]
  · simp [h, show k - 32 < 32 by omega, show 32 + (k - 32) = k by omega]

/-- A masked write of the high half joins the new high half with the old low half (10_state.md R47). -/
theorem setHighHalf_eq_append (old v : Word) : setHighHalf old v = v.extractLsb' 0 32 ++ old.extractLsb' 0 32 := by
  have hmask : ∀ k < 64, (0xFFFFFFFF00000000 : Word).getLsbD k = decide (32 ≤ k) := by decide
  apply BitVec.eq_of_getLsbD_eq
  intro k hk
  rw [setHighHalf, getLsbD_maskedWrite _ _ _ _ hk, hmask k hk, BitVec.getLsbD_append]
  by_cases h : k < 32
  · simp [h]
  · simp only [h, hk, show 32 ≤ k by omega, show k - 32 < 32 by omega, decide_true, if_true, if_false,
      BitVec.getLsbD_shiftLeft, BitVec.getLsbD_extractLsb', decide_false, Bool.not_false, Bool.true_and, Nat.zero_add]

/-- Two halves side by side, as a number. -/
theorem append_halves_toNat (a b : BitVec 32) : (a ++ b).toNat = a.toNat * 2 ^ 32 + b.toNat := by
  rw [BitVec.toNat_append, ← Nat.shiftLeft_add_eq_or_of_lt b.isLt, Nat.shiftLeft_eq]

theorem setLowHalf_toNat (old v : Word) :
    (setLowHalf old v).toNat = old.toNat / 2 ^ 32 * 2 ^ 32 + v.toNat % 2 ^ 32 := by
  have hold := old.isLt
  rw [setLowHalf_eq_append, append_halves_toNat]
  simp only [BitVec.extractLsb'_toNat, Nat.shiftRight_eq_div_pow]
  omega

theorem setHighHalf_toNat (old v : Word) :
    (setHighHalf old v).toNat = v.toNat % 2 ^ 32 * 2 ^ 32 + old.toNat % 2 ^ 32 := by
  rw [setHighHalf_eq_append, append_halves_toNat]
  simp only [BitVec.extractLsb'_toNat, Nat.shiftRight_eq_div_pow]
  omega

theorem highHalf_toNat (v : Word) : (highHalf v).toNat = v.toNat / 2 ^ 32 := by
  rw [highHalf, BitVec.toNat_ushiftRight, Nat.shiftRight_eq_div_pow]

/-- A counter reads back the value written, in the bits the register shows (10_state.md R47). -/
theorem narrow_writeCounter (xl : Xlen) (old v : Word) : narrow xl (writeCounter xl old v) = narrow xl v := by
  cases xl with
  | rv64 => rfl
  | rv32 =>
    apply BitVec.eq_of_toNat_eq
    rw [narrow_toNat, narrow_toNat, writeCounter, setLowHalf_toNat]
    simp only [Xlen.bits]
    omega

/-! ## Reading and writing -/

/-- Each read/write register reads as the field that trap entry, the returns and the masks act on. -/
theorem csrRead_eq_fieldOf {c : Csr} {s : State} {y : Word} (h : fieldOf c s = some y) :
    csrRead c s = narrow s.xlen y := by
  cases c <;> cases h <;> rfl

/-- A write to `mstatus` whose MPP field is not 2 is a plain masked write (10_state.md R30). -/
theorem writeMstatus_of_legal {s : State} {v : Word} (h : ¬(v.getLsbD 12 = true ∧ v.getLsbD 11 = false)) :
    writeMstatus s v = maskedWrite mstatusMask s.mstatus v := if_neg h

theorem narrow_tvecValue (xl : Xlen) (v : Word) : narrow xl (tvecValue xl v) = narrow xl v &&& ~~~2 := by
  rw [(tvecValue_ok xl v).1, tvecValue_eq_and]

theorem narrow_epcValue (xl : Xlen) (v : Word) : narrow xl (clearLow2 (narrow xl v)) = narrow xl v &&& ~~~3 := by
  rw [narrow_clearLow2 _ _ (narrow_narrow _ _), clearLow2_eq_and]

/-- Each read/write register reads, right after a write, the value under the register's own mask. -/
theorem csrRead_csrWrite {c : Csr} {s u : State} {v x : Word} (hw : csrWrite c v s = .ok u)
    (hx : readsBack c s v = some x) (hmpp : c = .mstatus → ¬(v.getLsbD 12 = true ∧ v.getLsbD 11 = false)) :
    csrRead c u = x := by
  cases c
  case satp => cases hx
  all_goals cases hw; cases hx
  case mstatus =>
    change narrow s.xlen (writeMstatus s v ||| mstatusHard s.xlen) = _
    rw [writeMstatus_of_legal (hmpp rfl)]
    rfl
  case medeleg | mideleg | mie | mcounteren | scounteren => exact narrow_and_mask _ v (by decide)
  case mtvec | stvec => exact narrow_tvecValue _ v
  case mepc | sepc => exact narrow_epcValue _ v
  case mcycle | minstret => exact narrow_writeCounter _ _ v
  case mscratch | sscratch | mcause | scause | mtval | stval => exact narrow_narrow _ v

/-- Settles O44: the read and the read after the write, each register by register. -/
theorem csrReadsBackWhatWasWritten : Obligations.CsrReadsBackWhatWasWritten := by
  intro c s
  exact ⟨fun y => csrRead_eq_fieldOf, fun u v x => csrRead_csrWrite⟩

/-- Settles O45: the free value is a mode, and a mode written to MPP is legal; the other bits are a masked write. -/
theorem illegalMppWriteLeavesLegalValue : Obligations.IllegalMppWriteLeavesLegalValue := by
  intro s u v hw h12 h11
  cases hw
  have hwrite : writeMstatus s v = setMpp (maskedWrite mstatusMask s.mstatus v) s.draw.illegalMpp := if_pos ⟨h12, h11⟩
  change (writeMstatus s v).extractLsb' 11 2 ≠ 2#2 ∧ ∀ k, k < 64 → k ≠ 11 → k ≠ 12 → (writeMstatus s v).getLsbD k = _
  rw [hwrite]
  refine ⟨mpp_legal_setMpp _ _, fun k hk hk11 hk12 => ?_⟩
  rw [setMpp, getLsbD_setBit _ _ _ _ hk, if_neg hk12, getLsbD_setBit _ _ _ _ hk, if_neg hk11,
    getLsbD_maskedWrite _ _ _ _ hk]
  rfl

/-! ## The pending bits and the supervisor's views -/

/-- Every bit of `mip` is below XLEN, so it reads as it is assembled (10_state.md R37). -/
theorem narrow_mipWith (s : State) (b : Bool) : narrow s.xlen (mipWith s b) = mipWith s b := by
  apply BitVec.eq_of_getLsbD_eq
  intro k hk
  rw [getLsbD_narrow, getLsbD_mipWith s b k hk]
  by_cases h : k < s.xlen.bits
  · simp [h]
  · have h32 : 32 ≤ k := Nat.le_trans (by cases s.xlen <;> decide) (Nat.le_of_not_lt h)
    simp [show k ≠ 1 by omega, show k ≠ 3 by omega, show k ≠ 5 by omega, show k ≠ 7 by omega, show k ≠ 9 by omega,
      show k ≠ 11 by omega]

theorem csrRead_mip (s : State) : csrRead .mip s = mipWith s (s.seipSw || s.ext.seipExt) := narrow_mipWith s _

theorem csrModifyBase_mip (s : State) : csrModifyBase .mip s = mipWith s s.seipSw := narrow_mipWith s _

/-- Settles O47: both values are assembled by `mipWith`, which differs in bit 9 alone. -/
theorem pendingBitsAreAssembled : Obligations.PendingBitsAreAssembled := by
  intro s u v
  rw [csrRead_mip, csrModifyBase_mip]
  refine ⟨fun k hk => getLsbD_mipWith s _ k hk, fun k hk => ?_, fun hw => ?_⟩
  · rw [getLsbD_mipWith s _ k hk, getLsbD_mipWith s _ k hk]
    by_cases h9 : k = 9
    · subst h9
      rfl
    · simp only [if_neg h9]
  · cases hw
    exact ⟨rfl, rfl, rfl, rfl⟩

/-- The five fields of `sstatus` (10_state.md R31). -/
theorem getLsbD_sstatusMask : ∀ k < 64, sstatusMask.getLsbD k = decide (k = 1 ∨ k = 5 ∨ k = 8 ∨ k = 18 ∨ k = 19) := by
  decide

/-- The three interrupts that can be delegated (10_state.md R35). -/
theorem getLsbD_sInterruptMask : ∀ k < 64, sInterruptMask.getLsbD k = decide (k = 1 ∨ k = 5 ∨ k = 9) := by decide

/-- UXL = 2 on RV64, and nothing on RV32 (10_state.md R31). -/
theorem getLsbD_sstatusHard (xl : Xlen) : ∀ k < xl.bits, (sstatusHard xl).getLsbD k = decide (k = 33) := by
  cases xl <;> decide

theorem xlen_bits_le (xl : Xlen) : xl.bits ≤ 64 := by cases xl <;> decide

theorem getLsbD_smask (s : State) {k : Nat} (hk : k < 64) :
    (smask s).getLsbD k = (s.mideleg.getLsbD k && decide (k = 1 ∨ k = 5 ∨ k = 9)) := by
  rw [smask, BitVec.getLsbD_and, getLsbD_sInterruptMask k hk]

theorem getLsbD_csrRead_sstatus (s : State) {k : Nat} (hk : k < s.xlen.bits) : (csrRead .sstatus s).getLsbD k =
    if k = 1 ∨ k = 5 ∨ k = 8 ∨ k = 18 ∨ k = 19 then s.mstatus.getLsbD k else decide (k = 33) := by
  have hk64 := Nat.lt_of_lt_of_le hk (xlen_bits_le _)
  change (narrow s.xlen ((s.mstatus &&& sstatusMask) ||| sstatusHard s.xlen)).getLsbD k = _
  rw [getLsbD_narrow, BitVec.getLsbD_or, BitVec.getLsbD_and, getLsbD_sstatusMask k hk64, getLsbD_sstatusHard _ k hk]
  split
  · next hfield => simp [hk, hfield, show k ≠ 33 by omega]
  · next hfield => simp [hk, hfield]

theorem getLsbD_csrRead_sie (s : State) {k : Nat} (hk : k < s.xlen.bits) : (csrRead .sie s).getLsbD k =
    (s.mie.getLsbD k && s.mideleg.getLsbD k && decide (k = 1 ∨ k = 5 ∨ k = 9)) := by
  have hk64 := Nat.lt_of_lt_of_le hk (xlen_bits_le _)
  change (narrow s.xlen (s.mie &&& smask s)).getLsbD k = _
  rw [getLsbD_narrow, BitVec.getLsbD_and, getLsbD_smask s hk64, decide_eq_true hk, Bool.true_and, Bool.and_assoc]

theorem getLsbD_csrRead_sip (s : State) {k : Nat} (hk : k < s.xlen.bits) : (csrRead .sip s).getLsbD k =
    ((csrRead .mip s).getLsbD k && s.mideleg.getLsbD k && decide (k = 1 ∨ k = 5 ∨ k = 9)) := by
  have hk64 := Nat.lt_of_lt_of_le hk (xlen_bits_le _)
  change (narrow s.xlen (s.mip &&& smask s)).getLsbD k = _
  rw [csrRead_mip, getLsbD_narrow, BitVec.getLsbD_and, getLsbD_smask s hk64, decide_eq_true hk, Bool.true_and,
    Bool.and_assoc]
  rfl

/-- Settles O48: the reads by the masks of R31 and R38, the writes by the masked write. -/
theorem supervisorViews : Obligations.SupervisorViews := by
  intro s u v
  refine ⟨fun k => getLsbD_csrRead_sstatus s, fun k => getLsbD_csrRead_sie s, fun k => getLsbD_csrRead_sip s,
    fun hw => ?_, fun hw => ?_, fun hw => ?_⟩ <;> cases hw
  · refine ⟨by constructor <;> rfl, fun k hk => ?_⟩
    change (maskedWrite sstatusMask s.mstatus v).getLsbD k = _
    simp only [getLsbD_maskedWrite _ _ _ _ hk, getLsbD_sstatusMask k hk, decide_eq_true_eq]
  · refine ⟨by constructor <;> rfl, fun k hk => ?_⟩
    change (maskedWrite (smask s) s.mie v).getLsbD k = _
    simp only [getLsbD_maskedWrite _ _ _ _ hk, getLsbD_smask s hk, Bool.and_eq_true, decide_eq_true_eq, and_comm]
  · exact ⟨by constructor <;> rfl, rfl⟩

/-! ## The counters -/

/-- On RV32 a 64-bit counter reads as its low half (10_state.md R47). -/
theorem narrow_rv32_toNat {xl : Xlen} (h : xl = .rv32) (v : Word) : (narrow xl v).toNat = v.toNat % 2 ^ 32 := by
  rw [narrow_toNat, h]
  rfl

theorem narrow_highHalf_toNat (xl : Xlen) (v : Word) : (narrow xl (highHalf v)).toNat = v.toNat / 2 ^ 32 := by
  have hv := v.isLt
  rw [narrow_of_lt, highHalf_toNat]
  rw [highHalf_toNat]
  cases xl <;> simp only [Xlen.bits] <;> omega

theorem writeCounter_rv32_toNat {xl : Xlen} (h : xl = .rv32) (old v : Word) :
    (writeCounter xl old v).toNat = old.toNat / 2 ^ 32 * 2 ^ 32 + v.toNat % 2 ^ 32 := by
  rw [h]
  exact setLowHalf_toNat old v

/-- Settles O49: the reads and writes of the counters on each XLEN. -/
theorem countersByHalves : Obligations.CountersByHalves := by
  intro s u v
  refine ⟨rfl, rfl, fun hx => ?_, fun hx => ?_⟩
  · have hread : ∀ w, narrow s.xlen w = w := by rw [hx]; exact narrow_rv64
    have hwrite : ∀ old, writeCounter s.xlen old v = v := by rw [hx]; exact fun _ => rfl
    refine ⟨hread _, hread _, hread _, fun hw => ?_, fun hw => ?_⟩ <;> cases hw
    · exact hwrite _
    · exact hwrite _
  · refine ⟨narrow_rv32_toNat hx _, narrow_highHalf_toNat _ _, narrow_rv32_toNat hx _, narrow_highHalf_toNat _ _, rfl,
      rfl, narrow_rv32_toNat hx _, narrow_highHalf_toNat _ _, fun hw => ?_, fun hw => ?_, fun hw => ?_,
      fun hw => ?_⟩ <;> cases hw
    · exact writeCounter_rv32_toNat hx _ v
    · exact setHighHalf_toNat _ v
    · exact writeCounter_rv32_toNat hx _ v
    · exact setHighHalf_toNat _ v

/-! ## Constants, x0 and reset -/

/-- Settles O50: each constant is an XLEN-bit value, and the ignored writes answer the state they are given. -/
theorem hardwiredRegisters : Obligations.HardwiredRegisters := by
  intro s v n
  have hzero : narrow s.xlen 0#64 = 0#64 := narrow_zero _
  refine ⟨?_, hzero, hzero, hzero, hzero, hzero, hzero, hzero, hzero, hzero, hzero, rfl, rfl, rfl, rfl⟩
  change (narrow s.xlen (misaValue s.xlen)).toNat = _
  cases s.xlen <;> rfl

/-- A write to x0 is discarded (10_state.md R20). -/
theorem setX_zero (s : State) (v : Word) : s.setX 0#5 v = s := by
  rw [State.setX, writeReg, if_pos rfl]

/-- Settles O22: the laws of the register file, with the value read as a number. -/
theorem registerZeroIsHardwired : Obligations.RegisterZeroIsHardwired := by
  intro s r v
  refine ⟨s.x_zero, setX_zero s v, fun hr => ?_, fun q hq => s.x_setX_other v hq⟩
  rw [s.x_setX_self r v hr, narrow_toNat]
  rfl

/-- Settles O59: the fields of the state that the reset move builds. -/
theorem resetDefinesState : Obligations.ResetDefinesState := by
  intro s
  have hmcause : csrRead .mcause s.resetMove = 0 := narrow_zero _
  exact ⟨rfl, rfl, BitVec.getLsbD_zero, BitVec.getLsbD_zero, hmcause, rfl, rfl, State.x_zero _, rfl, rfl, rfl, rfl, rfl⟩

end Sys2Proof.Proofs.RegisterValues
end

section
/-! PROOFS. The family `20_memory.md`, part 1: what changes memory. A step leaves every byte as it was, but for the bytes of
a store into a writable `main` region (R91). -/

namespace Sys2Proof.Proofs.MemoryWrites

open Sys2Proof.Machine Sys2Proof.Claims Sys2Proof.Proofs.StepEffects

/-- A load writes no byte, from memory or from a device (20_memory.md R90). -/
theorem memRead_mem {s u : State} {a v : Word} {n : Nat} (h : memRead s a n = .ok (v, u)) : u.mem = s.mem := by
  obtain ⟨-, r, -, -, ⟨-, -, rfl⟩ | ⟨-, -, rfl⟩⟩ := memRead_ok h <;> rfl

/-- The memory `m'` is the memory of `s` after `i`, a store into a writable `main` region, has written its bytes. -/
def StoresBytes (i : Instr) (s : State) (m' : Memory) : Prop :=
  ∃ b n v, IsStore i s b n ∧ Writable s b n .main ∧ m' = writeBytes s.mem b n v

/-- An instruction keeps the memory as a whole, or is a store that writes its own bytes to a `main` region: a store to a
device and a store that traps belong to the first. -/
theorem effect_mem_cases {i : Instr} {s t : State} (he : Effect i s t) : t.mem = s.mem ∨ StoresBytes i s t.mem := by
  cases he with
  | store rs1 rs2 imm n u hi hw =>
    obtain ⟨-, r, hr, hrw, ⟨hk, rfl⟩ | ⟨-, rfl⟩⟩ := memWrite_ok hw
    · exact .inr ⟨_, n, s.x rs2, ⟨rs1, rs2, imm, rfl, hi⟩, ⟨r, hr, hrw, hk⟩, rfl⟩
    · exact .inl rfl
  | trap e v hv => exact .inl (s.takeException_mem e v)
  | load a n rd v w u hr =>
    have hkeep : u.mem = s.mem := memRead_mem hr
    exact .inl hkeep
  | csrReads a c rd v hc => exact .inl (csrRetire_mem c false _)
  | csrWrites a c rd v new u hc hw =>
    have hkeep : u.mem = s.mem := csrWrite_mem hw
    exact .inl ((csrRetire_mem c true _).trans hkeep)
  | _ => exact .inl rfl

/-- A step keeps the memory as a whole, or runs a store that writes its own bytes to a `main` region. What precedes the
fetch plays no part in a store: only the registers, the parameters and memory do. -/
theorem step_mem_cases {s t : State} (h : step s = .next t) :
    t.mem = s.mem ∨ ∃ i, Fetches (awake s) i ∧ StoresBytes i (awake s) t.mem := by
  cases stepEffect_of_step h with
  | idle => exact .inl rfl
  | interrupt i hi => exact .inl (State.takeInterrupt_mem _ i)
  | fetchTrap e v hv => exact .inl (State.takeException_mem _ e v)
  | instruction i t hf he => exact (effect_mem_cases he).imp id fun hstore => ⟨i, hf, hstore⟩

/-- A byte that differs after a write of several bytes lies in the range written. -/
theorem range_of_memByte_writeBytes_ne {m : Memory} {b n a : Nat} {v : Word}
    (h : memByte (writeBytes m b n v) a ≠ memByte m a) : b ≤ a ∧ a < b + n := by
  by_contra hout
  exact h (by rw [memByte_writeBytes, if_neg hout])

/-- Settles O17: a step that does not keep the memory runs a store, and a store writes no byte outside its range. -/
theorem onlyStoresChangeMemory : Obligations.OnlyStoresChangeMemory := by
  intro s t a hstep hne
  obtain hkeep | ⟨i, hfetch, b, n, v, hstore, hwritable, hmem⟩ := step_mem_cases hstep
  · exact absurd (congrArg (memByte · a) hkeep) hne
  · rw [hmem] at hne
    obtain ⟨hlo, hhi⟩ := range_of_memByte_writeBytes_ne hne
    exact ⟨i, b, n, hfetch, hstore, hlo, hhi, hwritable⟩

/-! ## Read after write -/

/-- The low `n` bytes of a value as a number. -/
theorem lowBytes_toNat {n : Nat} (hn : n ≤ 8) (v : Word) : (lowBytes n v).toNat = v.toNat % 2 ^ (8 * n) := by
  have hmask : 2 ^ (8 * n) - 1 < 2 ^ 64 := by
    have := Nat.pow_le_pow_right (show 0 < 2 by decide) (show 8 * n ≤ 64 by omega)
    omega
  rw [lowBytes, BitVec.toNat_and, BitVec.toNat_ofNat, Nat.mod_eq_of_lt hmask, Nat.and_two_pow_sub_one_eq_mod]

/-- Byte `k` of a value, bits [8k+7:8k], as a number (20_memory.md R82). -/
theorem byteOf_toNat (v : Word) (k : Nat) : ((v >>> (8 * k)).setWidth 8).toNat = v.toNat / 256 ^ k % 256 := by
  rw [BitVec.toNat_setWidth, BitVec.toNat_ushiftRight, Nat.shiftRight_eq_div_pow, Nat.pow_mul]

/-- Byte `k` of the range after a write of `n` bytes is byte `k` of the value: the lowest address holds the low byte
(20_memory.md R82). -/
theorem memByte_writeBytes_toNat (m : Memory) (a : Nat) {n k : Nat} (hk : k < n) (v : Word) :
    (memByte (writeBytes m a n v) (a + k)).toNat = v.toNat / 256 ^ k % 256 := by
  rw [memByte_writeBytes, if_pos (by omega), Nat.add_sub_cancel_left, byteOf_toNat]

/-- A store that succeeds where a `main` region may be written writes its bytes, and keeps the parameters. -/
theorem memWrite_of_writable_main {s t : State} {a v : Word} {n : Nat} (hw : Writable s a.toNat n .main)
    (h : memWrite s a n v = .ok t) :
    a.toNat % n = 0 ∧ t.platform = s.platform ∧ t.mem = writeBytes s.mem a.toNat n v := by
  obtain ⟨r, hr, -, hk⟩ := hw
  obtain ⟨hal, r', hr', -, ⟨-, rfl⟩ | ⟨hio, -⟩⟩ := memWrite_ok h
  · exact ⟨hal, rfl, rfl⟩
  · rw [hr] at hr'
    cases hr'
    rw [hk] at hio
    cases hio

/-- Settles O40: the load finds the region and the alignment the store found, and reads the bytes it wrote. -/
theorem storedValueReadsBack : Obligations.StoredValueReadsBack := by
  intro s t a n v hn hread hwrite hok
  obtain ⟨hal, hplat, hmem⟩ := memWrite_of_writable_main hwrite hok
  obtain ⟨r, hr, hrd, hk⟩ := hread
  rw [← hplat] at hr
  refine ⟨⟨_, memRead_main hal hr hrd hk, ?_⟩, fun k hkn => ?_⟩
  · rw [hmem, readBytes_writeBytes _ _ _ hn, lowBytes_toNat hn]
  · rw [hmem, memByte_writeBytes_toNat _ _ hkn]

end Sys2Proof.Proofs.MemoryWrites
end

section
/-! PROOFS. The family `20_memory.md`, part 2: the answer of `raise`, in the terms of the statements (60_exceptions.md
R320-R324, 70_reset_and_hazards.md R362). No trap looks at what is held off, so each lemma lets `postponed` be any list: the
statements speak of the state before `holdOff`, the machine raises after it. -/

namespace Sys2Proof.Proofs.Exceptions

open Sys2Proof.Machine Sys2Proof.Claims

/-- The mode an exception goes to, by the model's test of delegation (60_exceptions.md R321). -/
theorem excTarget_eq (s : State) (e : Exc) : excTarget s e = if s.delegates e = true then .s else .m := by
  simp only [excTarget, State.delegates, Bool.and_eq_true, bne_iff_ne]

/-- The vector the model looks at is that of the mode the exception goes to (70_reset_and_hazards.md R362). -/
theorem vectorWritten_iff (s : State) (e : Exc) : s.vectorWritten e = true ↔ VectorWritten s e := by
  unfold State.vectorWritten VectorWritten
  rw [excTarget_eq]
  cases s.delegates e <;> simp

/-- Entry to M-mode leaves what R320 does not name. -/
theorem trapLeaves_enterM (s : State) (l : List (Interrupt × Nat)) (b : Bool) (c : Nat) (v : Word) :
    TrapLeaves s ({ s with postponed := l }.enterM b c v) := by
  constructor
  case regs => exact State.x_congr rfl rfl
  case bytes => exact fun _ => rfl
  all_goals rfl

/-- Entry to S-mode leaves what R320 does not name. -/
theorem trapLeaves_enterS (s : State) (l : List (Interrupt × Nat)) (b : Bool) (c : Nat) (v : Word) :
    TrapLeaves s ({ s with postponed := l }.enterS b c v) := by
  constructor
  case regs => exact State.x_congr rfl rfl
  case bytes => exact fun _ => rfl
  all_goals rfl

/-- Entry to M-mode is what R322 and R324 say, with every value a number. -/
theorem entersM_enterM (s : State) (l : List (Interrupt × Nat)) (b : Bool) {c : Nat} (v : Word) (hc : c < 32) :
    EntersM s ({ s with postponed := l }.enterM b c v) b c v.toNat where
  epc := rfl
  cause := causeWord_toNat s.xlen b c hc
  tval := rfl
  status k hk := by
    rw [State.enterM_mstatus, getLsbD_mstatusEnterM _ _ k hk]
    -- The law of `mstatusEnterM` tests the bits in the opposite order to R322.
    by_cases h12 : k = 12
    · subst h12; cases s.priv <;> rfl
    by_cases h11 : k = 11
    · subst h11; cases s.priv <;> rfl
    by_cases h3 : k = 3
    · subst h3; rfl
    · simp only [if_neg h12, if_neg h11, if_neg h3]
  priv := rfl
  pc := trapVector_toNat s.xlen s.mtvec b c
  wait := rfl
  sepc := rfl
  scause := rfl
  stval := rfl
  leaves := trapLeaves_enterM s l b c v

/-- Entry to S-mode is what R323 and R324 say, with every value a number. -/
theorem entersS_enterS (s : State) (l : List (Interrupt × Nat)) (b : Bool) {c : Nat} (v : Word) (hc : c < 32) :
    EntersS s ({ s with postponed := l }.enterS b c v) b c v.toNat where
  epc := rfl
  cause := causeWord_toNat s.xlen b c hc
  tval := rfl
  status k hk := by
    rw [State.enterS_mstatus, getLsbD_mstatusEnterS _ _ k hk]
    by_cases h8 : k = 8
    · subst h8; cases s.priv <;> rfl
    by_cases h1 : k = 1
    · subst h1; rfl
    · simp only [if_neg h8, if_neg h1]
  priv := rfl
  pc := trapVector_toNat s.xlen s.stvec b c
  wait := rfl
  mepc := rfl
  mcause := rfl
  mtval := rfl
  leaves := trapLeaves_enterS s l b c v

/-- Taking an exception is entry to the mode R321 names. -/
theorem raised_takeException (s : State) (l : List (Interrupt × Nat)) (e : Exc) (v : Word) :
    Raised s ({ s with postponed := l }.takeException e v) e v.toNat := by
  unfold Raised
  obtain ⟨hd, ht⟩ | ⟨hd, ht⟩ := State.takeException_cases { s with postponed := l } e v
  · have htarget : excTarget s e = .s := (excTarget_eq s e).trans (if_pos hd)
    rw [ht, htarget]
    exact ⟨nofun, fun _ => entersS_enterS s l false v e.code_lt⟩
  · have htarget : excTarget s e = .m := (excTarget_eq s e).trans (if_neg (Bool.eq_false_iff.mp hd))
    rw [ht, htarget]
    exact ⟨fun _ => entersM_enterM s l false v e.code_lt, nofun⟩

/-- `raise` answers as the statements say: the exception is taken, or refused through an unwritten vector. -/
theorem takesException_raise (s : State) (l : List (Interrupt × Nat)) (e : Exc) (v : Word) :
    TakesException (raise e v { s with postponed := l }) s e v.toNat := by
  obtain ⟨hw, h⟩ | ⟨hw, h⟩ := raise_cases e v { s with postponed := l } <;> rw [h]
  · have hwritten : VectorWritten s e := (vectorWritten_iff s e).mp hw
    exact ⟨fun _ => ⟨_, rfl, raised_takeException s l e v⟩, fun hno => absurd hwritten hno⟩
  · have hunwritten : ¬VectorWritten s e := fun h => Bool.eq_false_iff.mp hw ((vectorWritten_iff s e).mpr h)
    exact ⟨fun hyes => absurd hyes hunwritten, fun _ => rfl⟩

end Sys2Proof.Proofs.Exceptions
end

section
/-! PROOFS. The family `20_memory.md`, part 3: the two ways a fetch can fail (R92, R101). -/

namespace Sys2Proof.Proofs.FetchFailures

open Sys2Proof.Machine Sys2Proof.Claims Sys2Proof.Proofs.Scope Sys2Proof.Proofs.Exceptions

/-- A step of a running hart that takes no interrupt is its fetch and what the fetch leads to (00_scope.md R15). -/
theorem step_eq_fetchAndRun {s : State} (hruns : Runs s) (hnone : interruptNow (awake s) = none) :
    step s = fetchAndRun (awake s).holdOff := by
  rw [step_of_runs hruns, runActive_of_no_interrupt hnone]

/-- `Fetch(pc)` fails outside executable `main` memory (20_memory.md R92). -/
theorem fetch_eq_accessFault {s : State} (hal : s.pc.toNat % 4 = 0)
    (hno : ∀ r, s.platform.regionAt s.pc.toNat 4 = some r → r.x = false ∨ r.kind = .io) : fetch s = .accessFault := by
  obtain ⟨hmis, -⟩ | ⟨-, ⟨-, h⟩ | ⟨r, hr, hx, hk, -⟩⟩ := fetch_cases s
  · exact absurd hal hmis
  · exact h
  · have := hno r hr
    simp [hx, hk] at this

/-- `Fetch(pc)` finds a byte stored to since the last FENCE.I (20_memory.md R101). -/
theorem fetch_eq_stale {s : State} (hal : s.pc.toNat % 4 = 0) (hx : Executable s)
    (hst : ∃ a ∈ s.staleFetch, s.pc.toNat ≤ a ∧ a < s.pc.toNat + 4) : fetch s = .stale := by
  obtain ⟨r, hr, hrx, hrk⟩ := hx
  obtain ⟨a, ha, hin⟩ := hst
  obtain ⟨hmis, -⟩ | ⟨-, ⟨hno, -⟩ | ⟨-, -, -, -, ⟨-, h⟩ | ⟨hfresh, -⟩⟩⟩ := fetch_cases s
  · exact absurd hal hmis
  · have := hno r hr
    simp [hrx, hrk] at this
  · exact h
  · exact absurd hin (hfresh a ha)

/-- Settles O9: the fetch of the sampled state fails, and the step answers what `raise` answers. -/
theorem stepTrapsOnFetchFault : Obligations.StepTrapsOnFetchFault := by
  intro s hruns hnone hal hno
  have hfetch : fetch (awake s).holdOff = .accessFault := fetch_eq_accessFault hal hno
  have hstep : step s = raise .instrAccessFault s.pc (awake s).holdOff := by
    rw [step_eq_fetchAndRun hruns hnone, fetchAndRun, hfetch]
    rfl
  rw [hstep]
  exact takesException_raise (awake s) _ .instrAccessFault s.pc

/-- Settles O10: the fetch of the sampled state finds the stale byte, since sampling forgets none. -/
theorem stepRefusesStaleFetch : Obligations.StepRefusesStaleFetch := by
  intro s hruns hnone hal hx hst
  have hfetch : fetch (awake s).holdOff = .stale := fetch_eq_stale hal hx hst
  rw [step_eq_fetchAndRun hruns hnone, fetchAndRun, hfetch]

end Sys2Proof.Proofs.FetchFailures
end

section
/-! PROOFS. The family `30_encoding.md`, part 1: the opcode table (R110, R120). What two rows of the table, or one row, say
about a word is read off their masks and patterns, and the table is checked once. -/

namespace Sys2Proof.Proofs.OpcodeTable

/-- A hit, taken apart: the row exists for this XLEN, and the word under its mask is its pattern (30_encoding.md R120). -/
theorem hits_iff {r : Row} {xl : Xlen} {w : InstrWord} :
    r.hits xl w = true ↔ r.valid xl = true ∧ w &&& r.mask = r.pattern := by
  simp only [Row.hits, Bool.and_eq_true, beq_iff_eq]

/-- Two rows can be told apart by their own bits: the patterns differ under both masks, or no XLEN has both rows. -/
def apart (r q : Row) : Bool :=
  r.pattern &&& q.mask != q.pattern &&& r.mask || !(r.on32 && q.on32) && !(r.on64 && q.on64)

/-- Two patterns met by one word agree where both masks look. -/
theorem pattern_and_mask_eq {r q : Row} {w : InstrWord} (hr : w &&& r.mask = r.pattern) (hq : w &&& q.mask = q.pattern) :
    r.pattern &&& q.mask = q.pattern &&& r.mask := by
  rw [← hr, ← hq, BitVec.and_assoc, BitVec.and_assoc, BitVec.and_comm r.mask]

/-- Rows that can be told apart share no word on any XLEN. -/
theorem not_both_hit_of_apart {r q : Row} (h : apart r q = true) (xl : Xlen) (w : InstrWord) :
    ¬(r.hits xl w = true ∧ q.hits xl w = true) := by
  rintro ⟨hr, hq⟩
  obtain ⟨hrv, hrm⟩ := hits_iff.mp hr
  obtain ⟨hqv, hqm⟩ := hits_iff.mp hq
  have hagree := pattern_and_mask_eq hrm hqm
  rw [apart, hagree, bne_self_eq_false, Bool.false_or] at h
  cases xl <;> simp_all [Row.valid]

/-- Any two rows of the table can be told apart. -/
theorem opcodeTable_apart : opcodeTable.Pairwise fun r q => apart r q = true := by decide

/-- Settles O3: rows that can be told apart share no word. -/
theorem opcodeRowsNeverOverlap : Obligations.OpcodeRowsNeverOverlap :=
  opcodeTable_apart.imp not_both_hit_of_apart

/-- At most one row of the table matches a word. -/
theorem row_unique_of_hits {r q : Row} (hr : r ∈ opcodeTable) (hq : q ∈ opcodeTable) {xl : Xlen} {w : InstrWord}
    (hrw : r.hits xl w = true) (hqw : q.hits xl w = true) : r = q := by
  by_contra hne
  have hsymm : Std.Symm fun r q : Row => ∀ xl w, ¬(r.hits xl w = true ∧ q.hits xl w = true) :=
    ⟨fun _ _ h xl w hboth => h xl w hboth.symm⟩
  exact opcodeRowsNeverOverlap.forall hr hq hne xl w ⟨hrw, hqw⟩

/-- The decoder answers the term of a row of the table that the word hits. -/
theorem row_of_decode_ok {xl : Xlen} {w : InstrWord} {i : Instr} (h : decode xl w = .ok i) :
    ∃ r ∈ opcodeTable, r.hits xl w = true ∧ i = r.build w := by
  unfold decode at h
  split at h
  · next r hr =>
    cases h
    have hhit : r.hits xl w = true := by simpa using List.find?_some hr
    exact ⟨r, List.mem_of_find?_eq_some hr, hhit, rfl⟩
  · cases h

/-- A word that no row of the table matches is rejected. -/
theorem decode_error_of_no_ok {xl : Xlen} {w : InstrWord} (h : ∀ i, decode xl w ≠ .ok i) :
    ∃ e, decode xl w = .error e := by
  cases hd : decode xl w with
  | ok i => exact absurd hd (h i)
  | error e => exact ⟨e, rfl⟩

/-- The low `k` bits of a word that a pattern fixes, when the mask covers them. -/
theorem mod_eq_of_masked {w mask pattern : InstrWord} (h : w &&& mask = pattern) {k : Nat}
    (hm : mask.toNat % 2 ^ k = 2 ^ k - 1) : w.toNat % 2 ^ k = pattern.toNat % 2 ^ k := by
  rw [← h, BitVec.toNat_and, Nat.and_mod_two_pow, hm, Nat.and_two_pow_sub_one_eq_mod, Nat.mod_mod]

/-- Every row fixes bits [4:0]: [1:0] to 11 and [4:2] to something other than 111. -/
theorem opcodeTable_length_bits : ∀ r ∈ opcodeTable,
    r.mask.toNat % 2 ^ 5 = 2 ^ 5 - 1 ∧ r.pattern.toNat % 2 ^ 5 % 4 = 3 ∧ r.pattern.toNat % 2 ^ 5 / 4 ≠ 7 := by
  decide

/-- A word of the table has the length bits of a 32-bit instruction (30_encoding.md R110). -/
theorem length_bits_of_hits {r : Row} (hr : r ∈ opcodeTable) {xl : Xlen} {w : InstrWord} (h : r.hits xl w = true) :
    w.toNat % 4 = 3 ∧ w.toNat / 4 % 8 ≠ 7 := by
  obtain ⟨hmask, hlow, hmid⟩ := opcodeTable_length_bits r hr
  rw [← mod_eq_of_masked (hits_iff.mp h).2 hmask] at hlow hmid
  omega

/-- Settles O5: a word that decodes hits a row, and every row fixes the length bits. -/
theorem otherLengthsRejected : Obligations.OtherLengthsRejected := by
  intro xl w hlen
  refine decode_error_of_no_ok fun i hi => ?_
  obtain ⟨r, hr, hhit, -⟩ := row_of_decode_ok hi
  have := length_bits_of_hits hr hhit
  omega

end Sys2Proof.Proofs.OpcodeTable
end

section
/-! PROOFS. The family `30_encoding.md`, part 2: row by row, the instruction built from a word the row matches has that word
as its encoding and is well-formed (R111, R113, R114, R120). Each row is handed to the lemma of its format. -/

namespace Sys2Proof.Proofs.RowsRebuild

open Sys2Proof.Proofs.OpcodeTable

/-! ## Rows that lose no bit of the word -/

/-- The instruction that a row builds from a word it matches has that word as its encoding. -/
def Rebuilds (r : Row) : Prop := ∀ w, w &&& r.mask = r.pattern → encode (r.build w) = w

/-- A row rebuilds its words when the format its instruction is encoded in does, under the row's mask. -/
theorem rebuilds_of_format {r : Row} {enc : InstrWord → InstrWord} {mask pattern : InstrWord}
    (hb : ∀ w, encode (r.build w) = enc w) (hm : r.mask = mask) (hp : r.pattern = pattern)
    (henc : ∀ w, w &&& mask = pattern → enc w = w) : Rebuilds r := by
  intro w h
  rw [hm, hp] at h
  rw [hb, henc w h]

/-! One lemma for each format and mask of the table: which format a row has is read off `encode`, and that the row's mask
and pattern are those of the format off the table. -/

section
variable {r : Row} {f7 : BitVec 7} {f6 : BitVec 6} {f3 : BitVec 3} {op : BitVec 7}

theorem rebuilds_encR (hb : ∀ w, encode (r.build w) = encR f7 (rs2Of w) (rs1Of w) f3 (rdOf w) op)
    (hm : r.mask = 0xFE00707F := by rfl) (hp : r.pattern = encR f7 0 0 f3 0 op := by rfl) : Rebuilds r :=
  rebuilds_of_format hb hm hp fun _ => encR_rebuild

theorem rebuilds_encR_rd {rd : RegNum} (hb : ∀ w, encode (r.build w) = encR f7 (rs2Of w) (rs1Of w) f3 rd op)
    (hm : r.mask = 0xFE007FFF := by rfl) (hp : r.pattern = encR f7 0 0 f3 rd op := by rfl) : Rebuilds r :=
  rebuilds_of_format hb hm hp fun _ => encR_rebuild_rd

theorem rebuilds_shift32 (hb : ∀ w, encode (r.build w) = encI (f6 ++ shamt6 w) (rs1Of w) f3 (rdOf w) op)
    (hm : r.mask = 0xFE00707F := by rfl) (hp : r.pattern = encI (f6 ++ 0#6) 0 f3 0 op := by rfl) : Rebuilds r :=
  rebuilds_of_format hb hm hp fun _ => encI_shift_rebuild32

theorem rebuilds_shift64 (hb : ∀ w, encode (r.build w) = encI (f6 ++ shamt6 w) (rs1Of w) f3 (rdOf w) op)
    (hm : r.mask = 0xFC00707F := by rfl) (hp : r.pattern = encI (f6 ++ 0#6) 0 f3 0 op := by rfl) : Rebuilds r :=
  rebuilds_of_format hb hm hp fun _ => encI_shift_rebuild64

theorem rebuilds_encI (hb : ∀ w, encode (r.build w) = encI (immI w) (rs1Of w) f3 (rdOf w) op)
    (hm : r.mask = 0x0000707F := by rfl) (hp : r.pattern = encI 0 0 f3 0 op := by rfl) : Rebuilds r :=
  rebuilds_of_format hb hm hp fun _ => encI_rebuild

theorem rebuilds_fence (hb : ∀ w, encode (r.build w) = encI (fmOf w ++ predOf w ++ succOf w) (rs1Of w) f3 (rdOf w) op)
    (hm : r.mask = 0x0000707F := by rfl) (hp : r.pattern = encI 0 0 f3 0 op := by rfl) : Rebuilds r :=
  rebuilds_of_format hb hm hp fun _ => encI_fence_rebuild

theorem rebuilds_encS (hb : ∀ w, encode (r.build w) = encS (immS w) (rs2Of w) (rs1Of w) f3 op)
    (hm : r.mask = 0x0000707F := by rfl) (hp : r.pattern = encS 0 0 0 f3 op := by rfl) : Rebuilds r :=
  rebuilds_of_format hb hm hp fun _ => encS_rebuild

theorem rebuilds_encB (hb : ∀ w, encode (r.build w) = encB (offB w) (rs2Of w) (rs1Of w) f3 op)
    (hm : r.mask = 0x0000707F := by rfl) (hp : r.pattern = encB 0 0 0 f3 op := by rfl) : Rebuilds r :=
  rebuilds_of_format hb hm hp fun _ => encB_rebuild

theorem rebuilds_encU (hb : ∀ w, encode (r.build w) = encU (immU w) (rdOf w) op)
    (hm : r.mask = 0x0000007F := by rfl) (hp : r.pattern = encU 0 0 op := by rfl) : Rebuilds r :=
  rebuilds_of_format hb hm hp fun _ => encU_rebuild

theorem rebuilds_encJ (hb : ∀ w, encode (r.build w) = encJ (offJ w) (rdOf w) op)
    (hm : r.mask = 0x0000007F := by rfl) (hp : r.pattern = encJ 0 0 op := by rfl) : Rebuilds r :=
  rebuilds_of_format hb hm hp fun _ => encJ_rebuild

/-- A row without operands matches one word only. -/
theorem rebuilds_whole (hb : ∀ w, encode (r.build w) = r.pattern) (hm : r.mask = 0xFFFFFFFF := by rfl) : Rebuilds r :=
  rebuilds_of_format hb hm rfl fun w h => h.symm.trans (BitVec.and_allOnes (x := w))

end

/-! Each row of the table, with its format. -/

theorem shiftRows_rebuild : ∀ r ∈ shiftRows, Rebuilds r := by
  simp only [shiftRows, List.forall_mem_cons]
  exact ⟨rebuilds_encR fun _ => rfl, rebuilds_shift32 fun _ => rfl, rebuilds_shift64 fun _ => rfl,
    rebuilds_encR fun _ => rfl, rebuilds_shift32 fun _ => rfl, rebuilds_shift64 fun _ => rfl,
    rebuilds_encR fun _ => rfl, rebuilds_shift32 fun _ => rfl, rebuilds_shift64 fun _ => rfl,
    rebuilds_encR fun _ => rfl, rebuilds_encR fun _ => rfl, rebuilds_encR fun _ => rfl, rebuilds_encR fun _ => rfl,
    rebuilds_encR fun _ => rfl, rebuilds_encR fun _ => rfl, List.forall_mem_nil _⟩

theorem arithRows_rebuild : ∀ r ∈ arithRows, Rebuilds r := by
  simp only [arithRows, List.forall_mem_cons]
  exact ⟨rebuilds_encR fun _ => rfl, rebuilds_encI fun _ => rfl, rebuilds_encR fun _ => rfl, rebuilds_encU fun _ => rfl,
    rebuilds_encU fun _ => rfl, rebuilds_encR fun _ => rfl, rebuilds_encI fun _ => rfl, rebuilds_encR fun _ => rfl,
    List.forall_mem_nil _⟩

theorem logicRows_rebuild : ∀ r ∈ logicRows, Rebuilds r := by
  simp only [logicRows, List.forall_mem_cons]
  exact ⟨rebuilds_encR fun _ => rfl, rebuilds_encI fun _ => rfl, rebuilds_encR fun _ => rfl, rebuilds_encI fun _ => rfl,
    rebuilds_encR fun _ => rfl, rebuilds_encI fun _ => rfl, rebuilds_encR fun _ => rfl, rebuilds_encI fun _ => rfl,
    rebuilds_encR fun _ => rfl, rebuilds_encI fun _ => rfl, List.forall_mem_nil _⟩

theorem branchRows_rebuild : ∀ r ∈ branchRows, Rebuilds r := by
  simp only [branchRows, List.forall_mem_cons]
  exact ⟨rebuilds_encB fun _ => rfl, rebuilds_encB fun _ => rfl, rebuilds_encB fun _ => rfl, rebuilds_encB fun _ => rfl,
    rebuilds_encB fun _ => rfl, rebuilds_encB fun _ => rfl, rebuilds_encJ fun _ => rfl, rebuilds_encI fun _ => rfl,
    List.forall_mem_nil _⟩

theorem synchRows_rebuild : ∀ r ∈ synchRows, Rebuilds r := by
  simp only [synchRows, List.forall_mem_cons]
  exact ⟨rebuilds_fence fun _ => rfl, rebuilds_encI fun _ => rfl, rebuilds_whole fun _ => rfl,
    rebuilds_whole fun _ => rfl, List.forall_mem_nil _⟩

theorem csrRows_rebuild : ∀ r ∈ csrRows, Rebuilds r := by
  simp only [csrRows, List.forall_mem_cons]
  exact ⟨rebuilds_encI fun _ => rfl, rebuilds_encI fun _ => rfl, rebuilds_encI fun _ => rfl, rebuilds_encI fun _ => rfl,
    rebuilds_encI fun _ => rfl, rebuilds_encI fun _ => rfl, List.forall_mem_nil _⟩

theorem memRows_rebuild : ∀ r ∈ memRows, Rebuilds r := by
  simp only [memRows, List.forall_mem_cons]
  exact ⟨rebuilds_encI fun _ => rfl, rebuilds_encI fun _ => rfl, rebuilds_encI fun _ => rfl, rebuilds_encI fun _ => rfl,
    rebuilds_encI fun _ => rfl, rebuilds_encI fun _ => rfl, rebuilds_encI fun _ => rfl, rebuilds_encS fun _ => rfl,
    rebuilds_encS fun _ => rfl, rebuilds_encS fun _ => rfl, rebuilds_encS fun _ => rfl, List.forall_mem_nil _⟩

theorem privRows_rebuild : ∀ r ∈ privRows, Rebuilds r := by
  simp only [privRows, List.forall_mem_cons]
  exact ⟨rebuilds_whole fun _ => rfl, rebuilds_whole fun _ => rfl, rebuilds_whole fun _ => rfl,
    rebuilds_encR_rd fun _ => rfl, List.forall_mem_nil _⟩

/-- No row of the table drops a bit of the word (30_encoding.md R111, R120). -/
theorem opcodeTable_rebuild : ∀ r ∈ opcodeTable, Rebuilds r := by
  simp only [opcodeTable, List.forall_mem_append]
  exact ⟨⟨⟨⟨⟨⟨⟨shiftRows_rebuild, arithRows_rebuild⟩, logicRows_rebuild⟩, branchRows_rebuild⟩, synchRows_rebuild⟩,
    csrRows_rebuild⟩, memRows_rebuild⟩, privRows_rebuild⟩

/-! ## Rows that build well-formed terms -/

/-- The instruction that a row builds from a word it hits is well-formed on that machine. -/
def BuildsWellFormed (r : Row) : Prop := ∀ xl w, r.hits xl w = true → (r.build w).wellFormed xl = true

/-- A row that exists only when XLEN = 64 has to build well-formed terms there alone (30_encoding.md R125). -/
theorem buildsWellFormed_rv64 {r : Row} (h : ∀ w, (r.build w).wellFormed .rv64 = true)
    (h32 : r.on32 = false := by rfl) : BuildsWellFormed r := by
  intro xl w hit
  cases xl with
  | rv32 => exact absurd (hits_iff.mp hit).1 (by simp [Row.valid, h32])
  | rv64 => exact h w

/-- An immediate shift of RV32: the mask holds bit 25, the top of the shift amount, at 0 (30_encoding.md R114). -/
theorem buildsWellFormed_shift32 {r : Row} (h : ∀ xl w, (r.build w).wellFormed xl = shamtOk xl (shamt6 w))
    (hm : r.mask.getLsbD 25 = true := by rfl) (hp : r.pattern.getLsbD 25 = false := by rfl) : BuildsWellFormed r := by
  intro xl w hit
  have htop : (shamt6 w).getLsbD 5 = false := by
    have hbit := congrArg (BitVec.getLsbD · 25) (hits_iff.mp hit).2
    simp only [BitVec.getLsbD_and, hm, hp, Bool.and_true] at hbit
    simpa [shamt6] using hbit
  rw [h, shamtOk, htop, Bool.not_false, Bool.or_true]

theorem shiftRows_wellFormed : ∀ r ∈ shiftRows, BuildsWellFormed r := by
  simp only [shiftRows, List.forall_mem_cons]
  exact ⟨fun _ _ _ => rfl, buildsWellFormed_shift32 fun _ _ => rfl, buildsWellFormed_rv64 fun _ => rfl,
    fun _ _ _ => rfl, buildsWellFormed_shift32 fun _ _ => rfl, buildsWellFormed_rv64 fun _ => rfl,
    fun _ _ _ => rfl, buildsWellFormed_shift32 fun _ _ => rfl, buildsWellFormed_rv64 fun _ => rfl,
    buildsWellFormed_rv64 fun _ => rfl, buildsWellFormed_rv64 fun _ => rfl, buildsWellFormed_rv64 fun _ => rfl,
    buildsWellFormed_rv64 fun _ => rfl, buildsWellFormed_rv64 fun _ => rfl, buildsWellFormed_rv64 fun _ => rfl,
    List.forall_mem_nil _⟩

theorem arithRows_wellFormed : ∀ r ∈ arithRows, BuildsWellFormed r := by
  simp only [arithRows, List.forall_mem_cons]
  exact ⟨fun _ _ _ => rfl, fun _ _ _ => rfl, fun _ _ _ => rfl, fun _ _ _ => rfl, fun _ _ _ => rfl,
    buildsWellFormed_rv64 fun _ => rfl, buildsWellFormed_rv64 fun _ => rfl, buildsWellFormed_rv64 fun _ => rfl,
    List.forall_mem_nil _⟩

theorem memRows_wellFormed : ∀ r ∈ memRows, BuildsWellFormed r := by
  simp only [memRows, List.forall_mem_cons]
  exact ⟨fun _ _ _ => rfl, fun _ _ _ => rfl, fun _ _ _ => rfl, fun _ _ _ => rfl, fun _ _ _ => rfl,
    buildsWellFormed_rv64 fun _ => rfl, buildsWellFormed_rv64 fun _ => rfl, fun _ _ _ => rfl, fun _ _ _ => rfl,
    fun _ _ _ => rfl, buildsWellFormed_rv64 fun _ => rfl, List.forall_mem_nil _⟩

/-- The offsets are even because their bit 0 is not in the word (30_encoding.md R113). -/
theorem branchRows_wellFormed : ∀ r ∈ branchRows, BuildsWellFormed r := by
  simp [branchRows, BuildsWellFormed, Instr.wellFormed, offB_even, offJ_even, -BitVec.getLsbD_eq_getElem]

/-- The rows of these groups ask nothing of their operands. -/
theorem unconditionalRows_wellFormed :
    ∀ r ∈ logicRows ++ synchRows ++ csrRows ++ privRows, BuildsWellFormed r := by
  simp [logicRows, synchRows, csrRows, privRows, BuildsWellFormed, Instr.wellFormed]

/-- Every row of the table builds well-formed terms only. -/
theorem opcodeTable_wellFormed : ∀ r ∈ opcodeTable, BuildsWellFormed r := by
  have hrest := unconditionalRows_wellFormed
  simp only [List.forall_mem_append] at hrest
  obtain ⟨⟨⟨hlogic, hsynch⟩, hcsr⟩, hpriv⟩ := hrest
  simp only [opcodeTable, List.forall_mem_append]
  exact ⟨⟨⟨⟨⟨⟨⟨shiftRows_wellFormed, arithRows_wellFormed⟩, hlogic⟩, branchRows_wellFormed⟩, hsynch⟩, hcsr⟩,
    memRows_wellFormed⟩, hpriv⟩

end Sys2Proof.Proofs.RowsRebuild
end

section
/-! PROOFS. The family `30_encoding.md`, part 3: the decoder and the encoder undo each other (R111, R113, R114, R120). -/

namespace Sys2Proof.Proofs.Decoding

open Sys2Proof.Laws Sys2Proof.Proofs.OpcodeTable Sys2Proof.Proofs.RowsRebuild

/-- The word of every well-formed instruction hits a row that builds the instruction again (30_encoding.md R120). -/
theorem row_of_wellFormed : ∀ i : Instr, Encoding.Statement i
  | .sll _ _ _ => Encoding.sll _ _ _
  | .slli _ _ _ => Encoding.slli _ _ _
  | .srl _ _ _ => Encoding.srl _ _ _
  | .srli _ _ _ => Encoding.srli _ _ _
  | .sra _ _ _ => Encoding.sra _ _ _
  | .srai _ _ _ => Encoding.srai _ _ _
  | .sllw _ _ _ => Encoding.sllw _ _ _
  | .slliw _ _ _ => Encoding.slliw _ _ _
  | .srlw _ _ _ => Encoding.srlw _ _ _
  | .srliw _ _ _ => Encoding.srliw _ _ _
  | .sraw _ _ _ => Encoding.sraw _ _ _
  | .sraiw _ _ _ => Encoding.sraiw _ _ _
  | .add _ _ _ => Encoding.add _ _ _
  | .addi _ _ _ => Encoding.addi _ _ _
  | .sub _ _ _ => Encoding.sub _ _ _
  | .lui _ _ => Encoding.lui _ _
  | .auipc _ _ => Encoding.auipc _ _
  | .addw _ _ _ => Encoding.addw _ _ _
  | .addiw _ _ _ => Encoding.addiw _ _ _
  | .subw _ _ _ => Encoding.subw _ _ _
  | .xor _ _ _ => Encoding.xor _ _ _
  | .xori _ _ _ => Encoding.xori _ _ _
  | .or _ _ _ => Encoding.or _ _ _
  | .ori _ _ _ => Encoding.ori _ _ _
  | .and _ _ _ => Encoding.and _ _ _
  | .andi _ _ _ => Encoding.andi _ _ _
  | .slt _ _ _ => Encoding.slt _ _ _
  | .slti _ _ _ => Encoding.slti _ _ _
  | .sltu _ _ _ => Encoding.sltu _ _ _
  | .sltiu _ _ _ => Encoding.sltiu _ _ _
  | .beq _ _ _ => Encoding.beq _ _ _
  | .bne _ _ _ => Encoding.bne _ _ _
  | .blt _ _ _ => Encoding.blt _ _ _
  | .bge _ _ _ => Encoding.bge _ _ _
  | .bltu _ _ _ => Encoding.bltu _ _ _
  | .bgeu _ _ _ => Encoding.bgeu _ _ _
  | .jal _ _ => Encoding.jal _ _
  | .jalr _ _ _ => Encoding.jalr _ _ _
  | .fence _ _ _ _ _ => Encoding.fence _ _ _ _ _
  | .fenceI _ _ _ => Encoding.fenceI _ _ _
  | .ecall => Encoding.ecall
  | .ebreak => Encoding.ebreak
  | .csrrw _ _ _ => Encoding.csrrw _ _ _
  | .csrrs _ _ _ => Encoding.csrrs _ _ _
  | .csrrc _ _ _ => Encoding.csrrc _ _ _
  | .csrrwi _ _ _ => Encoding.csrrwi _ _ _
  | .csrrsi _ _ _ => Encoding.csrrsi _ _ _
  | .csrrci _ _ _ => Encoding.csrrci _ _ _
  | .lb _ _ _ => Encoding.lb _ _ _
  | .lh _ _ _ => Encoding.lh _ _ _
  | .lw _ _ _ => Encoding.lw _ _ _
  | .lbu _ _ _ => Encoding.lbu _ _ _
  | .lhu _ _ _ => Encoding.lhu _ _ _
  | .lwu _ _ _ => Encoding.lwu _ _ _
  | .ld _ _ _ => Encoding.ld _ _ _
  | .sb _ _ _ => Encoding.sb _ _ _
  | .sh _ _ _ => Encoding.sh _ _ _
  | .sw _ _ _ => Encoding.sw _ _ _
  | .sd _ _ _ => Encoding.sd _ _ _
  | .mret => Encoding.mret
  | .sret => Encoding.sret
  | .wfi => Encoding.wfi
  | .sfenceVma _ _ => Encoding.sfenceVma _ _

/-- A row of the table that a word hits is the row it decodes by, since no other row matches the word. -/
theorem decode_eq_ok_of_hits {r : Row} (hr : r ∈ opcodeTable) {xl : Xlen} {w : InstrWord} (h : r.hits xl w = true) :
    decode xl w = .ok (r.build w) := by
  cases hf : opcodeTable.find? (fun q => q.hits xl w) with
  | none => exact absurd h (List.find?_eq_none.mp hf r hr)
  | some q =>
    have hq : q.hits xl w = true := by simpa using List.find?_some hf
    have hqr : q = r := row_unique_of_hits (List.mem_of_find?_eq_some hf) hr hq h
    simp only [decode, hf, hqr]

/-- Settles O1: the row that the word hits is the row the decoder finds. -/
theorem decodeGivesBackEncoded : Obligations.DecodeGivesBackEncoded := by
  intro xl i hwf
  obtain ⟨r, hr, hhit, hbuild⟩ := row_of_wellFormed i xl hwf
  rw [decode_eq_ok_of_hits hr hhit, hbuild]

/-- Settles O2: what a word decodes to is built by a row it hits, and every row of the table rebuilds its words and builds
well-formed terms. -/
theorem encodeGivesBackDecoded : Obligations.EncodeGivesBackDecoded := by
  intro xl w i hdec
  obtain ⟨r, hr, hhit, rfl⟩ := row_of_decode_ok hdec
  exact ⟨opcodeTable_rebuild r hr w (hits_iff.mp hhit).2, opcodeTable_wellFormed r hr xl w hhit⟩

end Sys2Proof.Proofs.Decoding
end

section
/-! PROOFS. The family `30_encoding.md`, part 4: words and terms that stand for no instruction (R125). -/

namespace Sys2Proof.Proofs.IllegalWords

open Sys2Proof.Machine Sys2Proof.Claims Sys2Proof.Proofs.OpcodeTable Sys2Proof.Proofs.Decoding
open Sys2Proof.Proofs.Scope Sys2Proof.Proofs.Exceptions Sys2Proof.Proofs.FetchFailures

/-! ## The answer to an illegal word -/

/-- An instruction word zero-extended to XLEN bits is the same number (60_exceptions.md R302). -/
theorem zextX_instrWord_toNat (xl : Xlen) (w : InstrWord) : (zextX xl w).toNat = w.toNat := by
  have hw := w.isLt
  rw [zextX, narrow_toNat, BitVec.toNat_setWidth]
  cases xl <;> simp only [Xlen.bits] <;> omega

/-- An illegal word raises IllegalInstruction with itself as trap value, whatever is held off. -/
theorem takesException_raiseIllegal (s : State) (l : List (Interrupt × Nat)) (w : InstrWord) :
    TakesException (raiseIllegal w { s with postponed := l }) s .illegalInstr w.toNat := by
  have h := takesException_raise s l .illegalInstr (zextX s.xlen w)
  rwa [zextX_instrWord_toNat] at h

/-! ## A fetched word that is no instruction -/

/-- Bytes that stand for no instruction are a word that does not decode (20_memory.md R82, R92). -/
theorem decode_memWord_error {s : State} {e : Reject} (h : decodeBytes s.xlen (codeBytes s) = .error e) :
    decode s.xlen (memWord s.mem s.pc.toNat) = .error e := by
  simp only [decodeBytes, codeBytes] at h
  split at h
  · cases h
  · next e' he =>
    cases h
    exact he

/-- Putting a byte below a value multiplies the value by 256. -/
theorem toNat_append_byte {n : Nat} (hi : BitVec n) (lo : Byte) : (hi ++ lo).toNat = hi.toNat * 256 + lo.toNat := by
  rw [BitVec.toNat_append, ← Nat.shiftLeft_add_eq_or_of_lt lo.isLt, Nat.shiftLeft_eq]

/-- The word at an address is the number its four bytes make (20_memory.md R82). -/
theorem memWord_toNat (m : Memory) (a : Nat) : (memWord m a).toNat = bytesAt m a 4 := by
  simp only [memWord, toNat_append_byte, bytesAt, Nat.add_zero]
  omega

/-- Settles O8: the fetch finds the word, the decoder rejects it, and the step raises. -/
theorem stepTrapsOnIllegalWord : Obligations.StepTrapsOnIllegalWord := by
  intro s e hruns hnone hal hx hfresh herr
  have hfetch : fetch (awake s).holdOff = .word (memWord s.mem s.pc.toNat) := fetch_eq_word hal hx hfresh
  have hdec : decode (awake s).holdOff.xlen (memWord s.mem s.pc.toNat) = .error e := decode_memWord_error herr
  have hstep : step s = raiseIllegal (memWord s.mem s.pc.toNat) (awake s).holdOff := by
    rw [step_eq_fetchAndRun hruns hnone]
    simp only [fetchAndRun, hfetch, runWord, hdec]
  rw [hstep, ← memWord_toNat]
  exact takesException_raiseIllegal (awake s) _ _

/-! ## Terms of RV64 on RV32 -/

/-- A term of RV32 is one of RV64: only the evenness of an offset is asked on both. -/
theorem wellFormed_rv64_of_rv32 {i : Instr} (h : i.wellFormed .rv32 = true) : i.wellFormed .rv64 = true := by
  cases i with
  | beq | bne | blt | bge | bltu | bgeu | jal => exact h
  | _ => rfl

/-- The instructions that RV64I adds are well-formed on RV64 and nowhere else. -/
theorem wellFormed_of_rv64Only {i : Instr} (h : i.rv64Only = true) (xl : Xlen) : i.wellFormed xl = (xl == .rv64) := by
  cases i with
  | sllw | slliw | srlw | srliw | sraw | sraiw | addw | addiw | subw | lwu | ld | sd => rfl
  | _ => exact absurd h Bool.false_ne_true

/-- The instructions that RV64I adds have a meaning when XLEN = 64 alone. -/
theorem exec_eq_onlyRV64 {i : Instr} (h : i.rv64Only = true) (s : State) : ∃ b, exec i s = onlyRV64 i b s := by
  cases i with
  | sllw | slliw | srlw | srliw | sraw | sraiw | addw | addiw | subw | lwu | ld | sd => exact ⟨_, rfl⟩
  | _ => exact absurd h Bool.false_ne_true

/-- A shift amount of 32 and more does not fit on RV32 (30_encoding.md R114). -/
theorem shamtOk_rv32_of_le {shamt : BitVec 6} (h : 32 ≤ shamt.toNat) : shamtOk .rv32 shamt = false := by
  have htop : shamt.getLsbD 5 = true := by
    rw [← BitVec.msb_eq_getLsbD_last (x := shamt), BitVec.msb_eq_decide]
    exact decide_eq_true h
  rw [shamtOk, htop]
  rfl

/-- An immediate shift whose amount does not fit is illegal. -/
theorem shiftImm_of_not_shamtOk {s : State} {shamt : BitVec 6} (h : shamtOk s.xlen shamt = false) (i : Instr)
    (rd : RegNum) (v : Word) : shiftImm i shamt rd v s = raiseIllegal (encode i) s :=
  if_neg (by rw [h]; exact Bool.false_ne_true)

/-- What an RV64 form comes to on a machine of RV32: a term of RV64, not of RV32, that raises. -/
structure IllegalForm (i : Instr) (s : State) : Prop where
  wellFormed64 : i.wellFormed .rv64 = true
  not_wellFormed32 : i.wellFormed .rv32 = false
  raises : exec i s = raiseIllegal (encode i) s

theorem illegalForm_of_rv64Only {s : State} {i : Instr} (hx : s.xlen = .rv32) (h : i.rv64Only = true) :
    IllegalForm i s := by
  obtain ⟨b, hexec⟩ := exec_eq_onlyRV64 h s
  refine ⟨wellFormed_of_rv64Only h _, wellFormed_of_rv64Only h _, hexec.trans ?_⟩
  obtain ⟨h64, -⟩ | ⟨-, hraise⟩ := onlyRV64_cases i b s
  · simp [hx] at h64
  · exact hraise

theorem illegalForm_of_shift {s : State} {i : Instr} {rd rs1 : RegNum} {shamt : BitVec 6} (hx : s.xlen = .rv32)
    (h : 32 ≤ shamt.toNat) (hi : i = .slli rd rs1 shamt ∨ i = .srli rd rs1 shamt ∨ i = .srai rd rs1 shamt) :
    IllegalForm i s := by
  have h32 : shamtOk .rv32 shamt = false := shamtOk_rv32_of_le h
  have hs : shamtOk s.xlen shamt = false := by rw [hx, h32]
  obtain rfl | rfl | rfl := hi <;> exact ⟨rfl, h32, shiftImm_of_not_shamtOk hs _ _ _⟩

/-- A term of RV64 that is none of RV32 is out of RV32's reach. Its own word decodes, on RV64, to that term and to no
other, so on RV32 it cannot decode to a term of RV32. -/
theorem unreachable_on_rv32 {i : Instr} (h64 : i.wellFormed .rv64 = true) (h32 : i.wellFormed .rv32 = false) :
    (∃ e, decode .rv32 (encode i) = .error e) ∧ ∀ w, decode .rv32 w ≠ .ok i := by
  have hnever : ∀ w, decode .rv32 w ≠ .ok i := by
    intro w hw
    obtain ⟨-, hwf⟩ := encodeGivesBackDecoded .rv32 w i hw
    rw [h32] at hwf
    cases hwf
  refine ⟨decode_error_of_no_ok fun j hj => ?_, hnever⟩
  obtain ⟨henc, hwf⟩ := encodeGivesBackDecoded .rv32 (encode i) j hj
  have hi : decode .rv64 (encode i) = .ok i := decodeGivesBackEncoded .rv64 i h64
  have hj64 : decode .rv64 (encode i) = .ok j := by
    rw [← henc]
    exact decodeGivesBackEncoded .rv64 j (wellFormed_rv64_of_rv32 hwf)
  cases hi.symm.trans hj64
  exact hnever _ hj

/-- Settles O6: both kinds of RV64 forms are terms of RV64 that are none of RV32, and raise there. -/
theorem rv64FormsIllegalOnRv32 : Obligations.Rv64FormsIllegalOnRv32 := by
  intro s i hx hform
  have hill : IllegalForm i s := by
    obtain h | ⟨rd, rs1, shamt, hsh, hi⟩ := hform
    · exact illegalForm_of_rv64Only hx h
    · exact illegalForm_of_shift hx hsh hi
  obtain ⟨hrejected, hnever⟩ := unreachable_on_rv32 hill.wellFormed64 hill.not_wellFormed32
  refine ⟨hrejected, hnever, ?_⟩
  unfold TrapsIllegal Traps
  rw [hill.raises]
  exact takesException_raiseIllegal s s.postponed (encode i)

end Sys2Proof.Proofs.IllegalWords
end

section
/-! PROOFS. What the instructions that write one register and go on have in common: the state they leave, with its frame
(00_scope.md R11), and the fixed fields of their words (30_encoding.md R120). -/

namespace Sys2Proof.Proofs.RegisterWrites

open Sys2Proof.Machine Sys2Proof.Claims Sys2Proof.Proofs.IllegalWords

/-! ## The state after `x[rd] <- v; pc <- pc + 4` -/

/-- Writing a register and going on touches general registers, `pc` and `minstret` alone. -/
theorem plain_setX_retire (s : State) (rd : RegNum) (v : Word) : Plain s (s.setX rd v).retire where
  control := by constructor <;> rfl
  outside := by constructor <;> rfl
  bytes := fun _ => rfl
  priv := rfl
  wfiWait := rfl
  stale := rfl
  history := rfl

theorem goesOn_setX_retire (s : State) (rd : RegNum) (v : Word) : GoesOn s (s.setX rd v).retire :=
  ⟨(s.setX rd v).nextPc_toNat, rfl⟩

/-- An instruction of this shape does what `WritesRd` says as soon as the XLEN-bit value it writes has the property. -/
theorem writesRd_of_writeAndRetire {i : Instr} {s : State} {rd : RegNum} {v : Word} {P : Word → Prop}
    (hexec : exec i s = writeAndRetire rd v s) (hv : P (narrow s.xlen v)) : WritesRd i s rd P := by
  refine ⟨(s.setX rd v).retire, hexec, fun hrd => ?_, State.x_zero _, fun q hq => ?_, goesOn_setX_retire s rd v,
    plain_setX_retire s rd v⟩
  · rwa [State.x_retire, s.x_setX_self rd v hrd]
  · rw [State.x_retire, s.x_setX_other v hq]

/-- A `W` instruction on RV64 writes its 32-bit result sign-extended (41_arithmetic.md R168). -/
theorem writesRd_of_writeW {i : Instr} {s : State} {rd : RegNum} {w : BitVec 32} {P : Word → Prop}
    (hx : s.xlen = .rv64) (hexec : exec i s = writeW i rd w s) (hv : P (sextW w)) : WritesRd i s rd P := by
  have hbody : writeW i rd w s = writeAndRetire rd (sextW w) s := by
    obtain ⟨-, hw⟩ | ⟨h32, -⟩ := onlyRV64_cases i (writeAndRetire rd (sextW w) s) s
    · exact hw
    · simp [hx] at h32
  refine writesRd_of_writeAndRetire (hexec.trans hbody) ?_
  rwa [hx, narrow_rv64]

/-- An instruction that RV64I adds traps on RV32 (30_encoding.md R125). -/
theorem trapsIllegal_of_rv64Only {s : State} {i : Instr} (hx : s.xlen = .rv32) (h : i.rv64Only = true) :
    TrapsIllegal i s := by
  obtain ⟨-, -, htraps⟩ := rv64FormsIllegalOnRv32 s i hx (.inl h)
  exact htraps

/-! ## Signed readings -/

/-- The signed reading of what a register takes from a word. -/
theorem asSigned_narrow (s : State) (v : Word) : asSigned s (narrow s.xlen v) = signedX s.xlen v := by
  rw [signedX_eq, asSigned, modulus, narrow_toNat, Int.natCast_emod, Int.emod_bmod]

/-- The signed reading of a register. -/
theorem asSigned_x (s : State) (r : RegNum) : asSigned s (s.x r) = signedX s.xlen (s.x r) :=
  (signedX_eq s.xlen (s.x r)).symm

/-- A sign-extended 32-bit result keeps its signed reading. -/
theorem asSigned_sextW {s : State} (hx : s.xlen = .rv64) (w : BitVec 32) : asSigned s (sextW w) = w.toInt := by
  rw [asSigned, modulus, hx]
  exact (BitVec.toInt_eq_toNat_bmod _).symm.trans (BitVec.toInt_signExtend_of_le (by decide))

theorem low32_x_toNat (s : State) (r : RegNum) : (low32 (s.x r)).toNat = low s r := BitVec.toNat_setWidth _ _

/-! ## The fixed fields of a word of format R -/

theorem coded_encR {i : Instr} {f7 : BitVec 7} {rs2 rs1 : RegNum} {f3 : BitVec 3} {rd : RegNum} {op : BitVec 7}
    {m : InstrWord} (henc : encode i = encR f7 rs2 rs1 f3 rd op) (hm : encR f7 0 0 f3 0 op = m := by rfl) :
    Coded i m 0xFE00707F := by
  rw [Coded, henc]
  exact (encR_masked f7 rs2 rs1 f3 rd op).trans hm

end Sys2Proof.Proofs.RegisterWrites
end

section
/-! PROOFS. The family `40_shifts.md`: the value each kind of shift writes, by whatever amount, then the amounts of the
register forms and of the immediate forms (R140-R151). -/

namespace Sys2Proof.Proofs.Shifts

open Sys2Proof.Machine Sys2Proof.Claims Sys2Proof.Proofs.RegisterWrites Sys2Proof.Proofs.IllegalWords

/-! ## The three shifts of XLEN bits -/

section
variable {i : Instr} {s : State} {rd rs1 : RegNum} {n : Nat}

/-- A left shift multiplies, and drops what leaves at the top (R140). -/
theorem writesRd_shiftLeft (hexec : exec i s = writeAndRetire rd (s.x rs1 <<< n) s) :
    WritesRd i s rd (fun v => v.toNat = (s.x rs1).toNat * 2 ^ n % modulus s) := by
  refine writesRd_of_writeAndRetire hexec ?_
  have hdvd : 2 ^ s.xlen.bits ∣ 2 ^ 64 := by cases s.xlen <;> decide
  rw [narrow_toNat, BitVec.toNat_shiftLeft, Nat.shiftLeft_eq, Nat.mod_mod_of_dvd _ hdvd, modulus]

/-- A logical right shift divides (R142). -/
theorem writesRd_shiftRight (hexec : exec i s = writeAndRetire rd (s.x rs1 >>> n) s) :
    WritesRd i s rd (fun v => v.toNat = (s.x rs1).toNat / 2 ^ n) := by
  refine writesRd_of_writeAndRetire hexec ?_
  have hlt : (s.x rs1).toNat / 2 ^ n < 2 ^ s.xlen.bits := Nat.lt_of_le_of_lt (Nat.div_le_self _ _) (s.x_lt rs1)
  rw [narrow_toNat, BitVec.toNat_ushiftRight, Nat.shiftRight_eq_div_pow, Nat.mod_eq_of_lt hlt]

/-- An arithmetic right shift of XLEN bits divides the signed value, rounding down (R144). -/
theorem signedX_sraX (xl : Xlen) (v : Word) (n : Nat) : signedX xl (sraX xl v n) = signedX xl v / 2 ^ n := by
  cases xl with
  | rv32 =>
    have hback : (sraX .rv32 v n).setWidth 32 = (v.setWidth 32).sshiftRight n :=
      (BitVec.setWidth_setWidth_of_le _ (by decide)).trans (BitVec.setWidth_eq _)
    simp only [signedX, hback, BitVec.toInt_sshiftRight, Int.shiftRight_eq_div_pow, Nat.cast_pow, Nat.cast_ofNat]
  | rv64 =>
    simp only [signedX, sraX, BitVec.toInt_sshiftRight, Int.shiftRight_eq_div_pow, Nat.cast_pow, Nat.cast_ofNat]

theorem writesRd_sraX (hexec : exec i s = writeAndRetire rd (sraX s.xlen (s.x rs1) n) s) :
    WritesRd i s rd (fun v => asSigned s v = asSigned s (s.x rs1) / 2 ^ n) := by
  refine writesRd_of_writeAndRetire hexec ?_
  rw [asSigned_narrow, signedX_sraX, asSigned_x]

end

/-! ## The register forms -/

/-- The field of `x[rs2]` that holds the amount is its remainder modulo XLEN (R140). -/
theorem shiftAmount_eq_amount (s : State) (r : RegNum) : shiftAmount s r = amount s r := by
  unfold shiftAmount amount
  cases s.xlen <;> exact BitVec.extractLsb'_toNat 0 _ _

/-- Settles O28: each kind of shift, by the amount in `x[rs2]`. -/
theorem registerShifts : Obligations.RegisterShifts := by
  intro s rd rs1 rs2
  rw [← shiftAmount_eq_amount]
  exact ⟨coded_encR rfl, coded_encR rfl, coded_encR rfl, writesRd_shiftLeft rfl, writesRd_shiftRight rfl,
    writesRd_sraX rfl⟩

/-! ## The immediate forms -/

/-- An amount below XLEN fits (30_encoding.md R114). -/
theorem shamtOk_of_lt {xl : Xlen} {shamt : BitVec 6} (h : shamt.toNat < xl.bits) : shamtOk xl shamt = true := by
  cases xl with
  | rv32 =>
    have htop : shamt.getLsbD 5 = false := by
      rw [← BitVec.msb_eq_getLsbD_last (x := shamt), BitVec.msb_eq_decide]
      exact decide_eq_false (Nat.not_le.mpr h)
    rw [shamtOk, htop]
    rfl
  | rv64 => rfl

/-- An immediate shift whose amount fits writes its value. -/
theorem shiftImm_of_shamtOk {s : State} {shamt : BitVec 6} (h : shamtOk s.xlen shamt = true) (i : Instr) (rd : RegNum)
    (v : Word) : shiftImm i shamt rd v s = writeAndRetire rd v s := if_pos h

/-- The fixed fields of an immediate shift: bit 25 is one of them on RV32 alone (30_encoding.md R114, R120). -/
theorem coded_shift {i : Instr} {f6 : BitVec 6} {xl : Xlen} {shamt : BitVec 6} {rs1 : RegNum} {f3 : BitVec 3}
    {rd : RegNum} {op : BitVec 7} {m : InstrWord} (hok : shamtOk xl shamt = true)
    (henc : encode i = encI (f6 ++ shamt) rs1 f3 rd op) (hm : encI (f6 ++ 0#6) 0 f3 0 op = m := by rfl) :
    Coded i m (if xl = .rv32 then 0xFE00707F else 0xFC00707F) := by
  rw [Coded, henc, ← hm]
  cases xl with
  | rv32 =>
    have h5 : shamt.getLsbD 5 = false := by simpa [shamtOk] using hok
    exact encI_shift_masked32 _ _ _ _ _ _ h5
  | rv64 => exact encI_shift_masked64 _ _ _ _ _ _

/-- An amount of six bits reaches XLEN on RV32 alone. -/
theorem xlen_eq_rv32_of_bits_le {xl : Xlen} {shamt : BitVec 6} (h : xl.bits ≤ shamt.toNat) : xl = .rv32 := by
  cases xl with
  | rv32 => rfl
  | rv64 => exact absurd shamt.isLt (Nat.not_lt.mpr h)

/-- An immediate shift by 32 and more traps on RV32 (30_encoding.md R125). -/
theorem trapsIllegal_of_shift {s : State} {i : Instr} {rd rs1 : RegNum} {shamt : BitVec 6} (hx : s.xlen = .rv32)
    (h : 32 ≤ shamt.toNat) (hi : i = .slli rd rs1 shamt ∨ i = .srli rd rs1 shamt ∨ i = .srai rd rs1 shamt) :
    TrapsIllegal i s := by
  obtain ⟨-, -, htraps⟩ := rv64FormsIllegalOnRv32 s i hx (.inr ⟨rd, rs1, shamt, h, hi⟩)
  exact htraps

/-- Settles O29: an amount that fits is shifted by; one that does not is a term of RV64 on RV32. -/
theorem immediateShifts : Obligations.ImmediateShifts := by
  intro s rd rs1 shamt
  constructor
  · intro hlt
    have hok : shamtOk s.xlen shamt = true := shamtOk_of_lt hlt
    exact ⟨coded_shift hok rfl, coded_shift hok rfl, coded_shift hok rfl,
      writesRd_shiftLeft (shiftImm_of_shamtOk hok _ _ _), writesRd_shiftRight (shiftImm_of_shamtOk hok _ _ _),
      writesRd_sraX (shiftImm_of_shamtOk hok _ _ _)⟩
  · intro hge
    have hx : s.xlen = .rv32 := xlen_eq_rv32_of_bits_le hge
    have h32 : 32 ≤ shamt.toNat := by rwa [hx] at hge
    exact ⟨trapsIllegal_of_shift hx h32 (.inl rfl), trapsIllegal_of_shift hx h32 (.inr (.inl rfl)),
      trapsIllegal_of_shift hx h32 (.inr (.inr rfl))⟩

/-! ## The `W` shifts -/

section
variable {i : Instr} {s : State} {rd rs1 : RegNum} {n : Nat}

/-- A left shift of the low 32 bits, wrapped to 32 bits and sign-extended (R146). -/
theorem writesRd_shiftLeftW (hx : s.xlen = .rv64) (hexec : exec i s = writeW i rd (low32 (s.x rs1) <<< n) s) :
    WritesRd i s rd (fun v => asSigned s v = Int.bmod (low s rs1 * 2 ^ n) (2 ^ 32)) := by
  refine writesRd_of_writeW hx hexec ?_
  rw [asSigned_sextW hx, BitVec.toInt_shiftLeft, low32_x_toNat, Nat.shiftLeft_eq]
  simp only [Nat.cast_mul, Nat.cast_pow, Nat.cast_ofNat]

/-- A logical right shift of the low 32 bits, sign-extended: by 0 the result can be negative (R148). -/
theorem writesRd_shiftRightW (hx : s.xlen = .rv64) (hexec : exec i s = writeW i rd (low32 (s.x rs1) >>> n) s) :
    WritesRd i s rd (fun v => asSigned s v = Int.bmod (low s rs1 / 2 ^ n) (2 ^ 32)) := by
  refine writesRd_of_writeW hx hexec ?_
  rw [asSigned_sextW hx, BitVec.toInt_eq_toNat_bmod, BitVec.toNat_ushiftRight, low32_x_toNat,
    Nat.shiftRight_eq_div_pow]
  simp only [Nat.cast_pow, Nat.cast_ofNat, Int.natCast_ediv]

/-- An arithmetic right shift of the low 32 bits, read as signed (R150). -/
theorem writesRd_sshiftRightW (hx : s.xlen = .rv64)
    (hexec : exec i s = writeW i rd ((low32 (s.x rs1)).sshiftRight n) s) :
    WritesRd i s rd (fun v => asSigned s v = Int.bmod (low s rs1) (2 ^ 32) / 2 ^ n) := by
  refine writesRd_of_writeW hx hexec ?_
  rw [asSigned_sextW hx, BitVec.toInt_sshiftRight, BitVec.toInt_eq_toNat_bmod, low32_x_toNat,
    Int.shiftRight_eq_div_pow]
  simp only [Nat.cast_pow, Nat.cast_ofNat]

end

/-- The field of `x[rs2]` that holds the amount of a `W` shift is its remainder modulo 32 (R146). -/
theorem shiftAmountW_eq_mod (s : State) (r : RegNum) : shiftAmountW s r = (s.x r).toNat % 32 :=
  BitVec.extractLsb'_toNat 0 5 _

/-- Settles O30: each kind of `W` shift by both amounts; all six exist on RV64 alone. -/
theorem wordShifts : Obligations.WordShifts := by
  intro s rd rs1 rs2 shamt
  rw [← shiftAmountW_eq_mod]
  refine ⟨⟨coded_encR rfl, coded_encR rfl, coded_encR rfl, coded_encR rfl, coded_encR rfl, coded_encR rfl⟩,
    fun hx => ?_, fun hx => ?_⟩
  · exact ⟨writesRd_shiftLeftW hx rfl, writesRd_shiftLeftW hx rfl, writesRd_shiftRightW hx rfl,
      writesRd_shiftRightW hx rfl, writesRd_sshiftRightW hx rfl, writesRd_sshiftRightW hx rfl⟩
  · exact ⟨trapsIllegal_of_rv64Only hx rfl, trapsIllegal_of_rv64Only hx rfl, trapsIllegal_of_rv64Only hx rfl,
      trapsIllegal_of_rv64Only hx rfl, trapsIllegal_of_rv64Only hx rfl, trapsIllegal_of_rv64Only hx rfl⟩

end Sys2Proof.Proofs.Shifts
end

section
/-! PROOFS. The fixed fields of the words of formats I and U (30_encoding.md R120), as `coded_encR` has them for format R. -/

namespace Sys2Proof.Proofs.FixedFields

open Sys2Proof.Claims

theorem coded_encI {i : Instr} {imm : BitVec 12} {rs1 : RegNum} {f3 : BitVec 3} {rd : RegNum} {op : BitVec 7}
    {m : InstrWord} (henc : encode i = encI imm rs1 f3 rd op) (hm : encI 0 0 f3 0 op = m := by rfl) :
    Coded i m 0x0000707F := by
  rw [Coded, henc]
  exact (encI_masked imm rs1 f3 rd op).trans hm

theorem coded_encU {i : Instr} {imm : BitVec 20} {rd : RegNum} {op : BitVec 7} {m : InstrWord}
    (henc : encode i = encU imm rd op) (hm : encU 0 0 op = m := by rfl) : Coded i m 0x0000007F := by
  rw [Coded, henc]
  exact (encU_masked imm rd op).trans hm

end Sys2Proof.Proofs.FixedFields
end

section
/-! PROOFS. The family `41_arithmetic.md`, part 1: sums and differences of words as congruences. A result is the wrapped or
sign-extended integer as soon as its number is congruent to that integer (R160-R168). -/

namespace Sys2Proof.Proofs.Congruences

open Sys2Proof.Machine Sys2Proof.Claims Sys2Proof.Proofs.RegisterWrites

/-! ## What a word is congruent to -/

section
variable {n : Nat} {m : Int}

theorem toNat_add_modEq (hm : m ∣ 2 ^ n) (a b : BitVec n) : ((a + b).toNat : Int) ≡ a.toNat + b.toNat [ZMOD m] := by
  have hsum : ((a + b).toNat : Int) = ((a.toNat : Int) + b.toNat) % 2 ^ n := by rw [BitVec.toNat_add]; norm_cast
  rw [hsum]
  exact (Int.mod_modEq _ _).of_dvd hm

theorem toNat_sub_modEq (hm : m ∣ 2 ^ n) (a b : BitVec n) : ((a - b).toNat : Int) ≡ a.toNat - b.toNat [ZMOD m] := by
  have hback : ((a - b).toNat : Int) + b.toNat ≡ a.toNat [ZMOD m] := by
    simpa using (toNat_add_modEq hm (a - b) b).symm
  simpa using hback.sub (Int.ModEq.refl (b.toNat : Int))

end

theorem modulus_dvd_two_pow (s : State) : (modulus s : Int) ∣ 2 ^ 64 := by
  unfold modulus; cases s.xlen <;> decide

theorem two_pow_dvd_modulus (s : State) : (2 ^ 32 : Int) ∣ modulus s := by
  unfold modulus; cases s.xlen <;> decide

/-- A sign-extended field is congruent to its signed value (30_encoding.md R113). -/
theorem sextX_modEq (s : State) {n : Nat} (v : BitVec n) (hn : n ≤ 32) :
    ((sextX s.xlen v).toNat : Int) ≡ v.toInt [ZMOD modulus s] := by
  rw [sextX_toNat s.xlen v hn]
  exact Int.mod_modEq _ _

/-- The signed value of the U-immediate (30_encoding.md R113). -/
theorem toInt_append_zeros (imm : BitVec 20) : (imm ++ 0#12).toInt = upper imm := by
  have hshift : (imm ++ 0#12).toNat = imm.toNat * 4096 :=
    (BitVec.toNat_append ..).trans ((Nat.or_zero _).trans (Nat.shiftLeft_eq ..))
  rw [BitVec.toInt_eq_toNat_bmod, hshift, Nat.cast_mul]
  rfl

/-- A sum with the I-immediate. -/
theorem add_imm12_modEq (s : State) (v : Word) (imm : BitVec 12) :
    ((v + imm12 s imm).toNat : Int) ≡ v.toNat + imm.toInt [ZMOD modulus s] :=
  (toNat_add_modEq (modulus_dvd_two_pow s) v _).trans ((sextX_modEq s imm (by decide)).add_left _)

/-- The U-immediate. -/
theorem immUpper_modEq (s : State) (imm : BitVec 20) : ((immUpper s imm).toNat : Int) ≡ upper imm [ZMOD modulus s] :=
  toInt_append_zeros imm ▸ sextX_modEq s (imm ++ 0#12) (by decide)

theorem low32_modEq (v : Word) : ((low32 v).toNat : Int) ≡ v.toNat [ZMOD 2 ^ 32] := by
  have hlow : ((low32 v).toNat : Int) = (v.toNat : Int) % 2 ^ 32 := by rw [low32, BitVec.toNat_setWidth]; norm_cast
  rw [hlow]
  exact Int.mod_modEq _ _

/-! ## What an instruction writes, from what its result is congruent to -/

/-- An XLEN-bit value is the wrapped integer that it is congruent to. -/
theorem narrow_toNat_eq_wrap {s : State} {v : Word} {k : Int} (h : (v.toNat : Int) ≡ k [ZMOD modulus s]) :
    (narrow s.xlen v).toNat = wrap s k := by
  rw [narrow_toNat, wrap, ← h.eq]
  exact (Int.toNat_natCast _).symm

theorem writesRd_wrap {i : Instr} {s : State} {rd : RegNum} {v : Word} {k : Int}
    (hexec : exec i s = writeAndRetire rd v s) (h : (v.toNat : Int) ≡ k [ZMOD modulus s]) :
    WritesRd i s rd (fun x => x.toNat = wrap s k) :=
  writesRd_of_writeAndRetire hexec (narrow_toNat_eq_wrap h)

/-- The result of a `W` instruction on RV64, read as signed (R168). -/
theorem writesRd_bmodW {i : Instr} {s : State} {rd : RegNum} {w : BitVec 32} {k : Int} (hx : s.xlen = .rv64)
    (hexec : exec i s = writeW i rd w s) (h : (w.toNat : Int) ≡ k [ZMOD 2 ^ 32]) :
    WritesRd i s rd (fun x => asSigned s x = Int.bmod k (2 ^ 32)) := by
  refine writesRd_of_writeW hx hexec ?_
  rw [asSigned_sextW hx, BitVec.toInt_eq_toNat_bmod, ← Int.emod_bmod, ← Int.emod_bmod (x := k)]
  exact congrArg (Int.bmod · _) h

end Sys2Proof.Proofs.Congruences
end

section
/-! PROOFS. The family `41_arithmetic.md`, part 2: the instructions (R160-R167), and the words of the rules' examples. -/

namespace Sys2Proof.Proofs.Arithmetic

open Sys2Proof.Machine Sys2Proof.Claims Sys2Proof.Proofs.RegisterWrites Sys2Proof.Proofs.Congruences
open Sys2Proof.Proofs.Decoding Sys2Proof.Proofs.FixedFields

/-- Settles O23: each result is congruent to its sum or difference modulo 2^XLEN. -/
theorem addAndSubWrap : Obligations.AddAndSubWrap := by
  intro s rd rs1 rs2 imm
  exact ⟨coded_encR rfl, coded_encR rfl, coded_encI rfl,
    writesRd_wrap rfl (toNat_add_modEq (modulus_dvd_two_pow s) _ _),
    writesRd_wrap rfl (toNat_sub_modEq (modulus_dvd_two_pow s) _ _),
    writesRd_wrap rfl (add_imm12_modEq s _ imm)⟩

/-- Settles O24: the U-immediate, alone and added to `pc`. -/
theorem upperImmediates : Obligations.UpperImmediates := by
  intro s rd imm
  have hsum : ((s.pc + immUpper s imm).toNat : Int) ≡ s.pc.toNat + upper imm [ZMOD modulus s] :=
    (toNat_add_modEq (modulus_dvd_two_pow s) _ _).trans ((immUpper_modEq s imm).add_left _)
  exact ⟨coded_encU rfl, coded_encU rfl, writesRd_wrap rfl (immUpper_modEq s imm), writesRd_wrap rfl hsum⟩

/-- Settles O25: each 32-bit result is congruent to its sum or difference modulo 2^32; all three exist on RV64 alone. -/
theorem wordArithmetic : Obligations.WordArithmetic := by
  intro s rd rs1 rs2 imm
  refine ⟨⟨coded_encR rfl, coded_encI rfl, coded_encR rfl⟩, fun hx => ?_, fun hx => ?_⟩
  · have hadd := toNat_add_modEq (dvd_refl (2 ^ 32)) (low32 (s.x rs1)) (low32 (s.x rs2))
    have hsub := toNat_sub_modEq (dvd_refl (2 ^ 32)) (low32 (s.x rs1)) (low32 (s.x rs2))
    rw [low32_x_toNat, low32_x_toNat] at hadd hsub
    have haddi : ((low32 (s.x rs1 + imm12 s imm)).toNat : Int) ≡ (s.x rs1).toNat + imm.toInt [ZMOD 2 ^ 32] :=
      (low32_modEq _).trans ((add_imm12_modEq s _ imm).of_dvd (two_pow_dvd_modulus s))
    exact ⟨writesRd_bmodW hx rfl hadd, writesRd_bmodW hx rfl haddi, writesRd_bmodW hx rfl hsub⟩
  · exact ⟨trapsIllegal_of_rv64Only hx rfl, trapsIllegal_of_rv64Only hx rfl, trapsIllegal_of_rv64Only hx rfl⟩

/-- The word of a well-formed instruction decodes to it. -/
theorem decode_of_encode_eq {xl : Xlen} {w : InstrWord} {i : Instr} (henc : encode i = w)
    (hwf : i.wellFormed xl = true) : decode xl w = .ok i :=
  henc ▸ decodeGivesBackEncoded xl i hwf

/-- Settles O4: each word is the encoding of its instruction. -/
theorem specWordsDecode : Obligations.SpecWordsDecode :=
  ⟨decode_of_encode_eq rfl rfl, decode_of_encode_eq rfl rfl, decode_of_encode_eq rfl rfl, decode_of_encode_eq rfl rfl,
    decode_of_encode_eq rfl rfl, decode_of_encode_eq rfl rfl, decode_of_encode_eq rfl rfl, decode_of_encode_eq rfl rfl,
    decode_of_encode_eq rfl rfl, decode_of_encode_eq rfl rfl⟩

end Sys2Proof.Proofs.Arithmetic
end

section
/-! PROOFS. The family `42_logical_compare.md`, part 1: the bitwise instructions (R170-R175). The result is known bit by bit;
what is left to say is that the register takes the bits below XLEN, and that two registers have no bits above them. -/

namespace Sys2Proof.Proofs.Logical

open Sys2Proof.Machine Sys2Proof.Claims Sys2Proof.Proofs.RegisterWrites Sys2Proof.Proofs.FixedFields

/-! ## Bits of the operands -/

/-- A register has no bit from XLEN up. -/
theorem getLsbD_x_of_ge (s : State) (r : RegNum) {k : Nat} (h : s.xlen.bits ≤ k) : (s.x r).getLsbD k = false := by
  rw [← State.narrow_x s r, getLsbD_narrow, decide_eq_false (Nat.not_lt.mpr h), Bool.false_and]

/-- The sign-extended immediate has the bits of R113. -/
theorem getLsbD_imm12 (s : State) (imm : BitVec 12) {k : Nat} (h : k < s.xlen.bits) :
    (imm12 s imm).getLsbD k = immBit imm k := by
  rw [imm12, getLsbD_sextX s.xlen imm k h, immBit, BitVec.msb_eq_getLsbD_last]

/-! ## The two forms, for any bitwise operation `f` -/

section
variable {i : Instr} {s : State} {rd rs1 rs2 : RegNum} {imm : BitVec 12} {v : Word}

/-- The register form. No bit from XLEN up is set in either operand, so none is in the result. -/
theorem writesRd_bitwise (f : Bool → Bool → Bool) (hexec : exec i s = writeAndRetire rd v s)
    (hbits : ∀ k, v.getLsbD k = f ((s.x rs1).getLsbD k) ((s.x rs2).getLsbD k)) (hf : f false false = false := by rfl) :
    WritesRd i s rd (fun w => ∀ k, w.getLsbD k = f ((s.x rs1).getLsbD k) ((s.x rs2).getLsbD k)) := by
  refine writesRd_of_writeAndRetire hexec fun k => ?_
  rw [getLsbD_narrow]
  by_cases hk : k < s.xlen.bits
  · rw [decide_eq_true hk, Bool.true_and, hbits]
  · have hge : s.xlen.bits ≤ k := Nat.le_of_not_lt hk
    rw [decide_eq_false hk, Bool.false_and, getLsbD_x_of_ge s rs1 hge, getLsbD_x_of_ge s rs2 hge, hf]

/-- The immediate form. -/
theorem writesRd_bitwiseImm (f : Bool → Bool → Bool) (hexec : exec i s = writeAndRetire rd v s)
    (hbits : ∀ k, v.getLsbD k = f ((s.x rs1).getLsbD k) ((imm12 s imm).getLsbD k)) :
    WritesRd i s rd (fun w => ∀ k, k < s.xlen.bits → w.getLsbD k = f ((s.x rs1).getLsbD k) (immBit imm k)) := by
  refine writesRd_of_writeAndRetire hexec fun k hk => ?_
  rw [getLsbD_narrow, decide_eq_true hk, Bool.true_and, hbits, getLsbD_imm12 s imm hk]

end

/-- Settles O26: each instruction is one of the two forms, for the operation that acts on single bits. -/
theorem bitwiseLogic : Obligations.BitwiseLogic := by
  intro s rd rs1 rs2 imm
  exact ⟨⟨coded_encR rfl, coded_encI rfl, coded_encR rfl, coded_encI rfl, coded_encR rfl, coded_encI rfl⟩,
    writesRd_bitwise bne rfl fun _ => BitVec.getLsbD_xor, writesRd_bitwiseImm bne rfl fun _ => BitVec.getLsbD_xor,
    writesRd_bitwise or rfl fun _ => BitVec.getLsbD_or, writesRd_bitwiseImm or rfl fun _ => BitVec.getLsbD_or,
    writesRd_bitwise and rfl fun _ => BitVec.getLsbD_and, writesRd_bitwiseImm and rfl fun _ => BitVec.getLsbD_and⟩

end Sys2Proof.Proofs.Logical
end

section
/-! PROOFS. The family `42_logical_compare.md`, part 2: the compare instructions (R176-R179). Each writes 1 or 0 by a
comparison of the model; that comparison is then read on numbers. -/

namespace Sys2Proof.Proofs.Compare

open Sys2Proof.Machine Sys2Proof.Claims Sys2Proof.Proofs.RegisterWrites Sys2Proof.Proofs.FixedFields
open Sys2Proof.Proofs.Congruences

/-! ## The result -/

theorem narrow_boolWord_toNat (xl : Xlen) (b : Bool) : (narrow xl (boolWord b)).toNat = if b then 1 else 0 := by
  cases xl <;> cases b <;> rfl

/-- A compare instruction writes 1 exactly when what its comparison decides is the case. -/
theorem writesRd_boolWord {i : Instr} {s : State} {rd : RegNum} {b : Bool} {p : Prop} [Decidable p]
    (hexec : exec i s = writeAndRetire rd (boolWord b) s) (hb : b = true ↔ p) :
    WritesRd i s rd (fun v => v.toNat = if p then 1 else 0) := by
  refine writesRd_of_writeAndRetire hexec ?_
  rw [narrow_boolWord_toNat]
  exact if_congr hb rfl rfl

/-! ## The comparisons, on numbers -/

/-- The signed value of the sign-extended immediate is its own, on either XLEN. -/
theorem signedX_imm12 (s : State) (imm : BitVec 12) : signedX s.xlen (imm12 s imm) = imm.toInt := by
  have hlo : -2048 ≤ imm.toInt := BitVec.le_toInt imm
  have hhi : imm.toInt < 2048 := BitVec.toInt_lt
  rw [signedX_eq, imm12, sextX_toNat s.xlen imm (by decide), Int.emod_bmod]
  cases s.xlen <;> exact Int.bmod_eq_of_le (by simp only [Xlen.bits]; omega) (by simp only [Xlen.bits]; omega)

theorem ltSigned_x_iff (s : State) (r q : RegNum) :
    ltSigned s.xlen (s.x r) (s.x q) = true ↔ asSigned s (s.x r) < asSigned s (s.x q) := by
  rw [ltSigned, decide_eq_true_iff, asSigned_x, asSigned_x]

theorem ltSigned_imm12_iff (s : State) (r : RegNum) (imm : BitVec 12) :
    ltSigned s.xlen (s.x r) (imm12 s imm) = true ↔ asSigned s (s.x r) < imm.toInt := by
  rw [ltSigned, decide_eq_true_iff, asSigned_x, signedX_imm12]

theorem ltUnsigned_x_iff (s : State) (r q : RegNum) :
    ltUnsigned s.xlen (s.x r) (s.x q) = true ↔ (s.x r).toNat < (s.x q).toNat := by
  rw [ltUnsigned, decide_eq_true_iff, State.narrow_x, State.narrow_x]

/-- The immediate is first sign-extended, then read unsigned (R179). -/
theorem ltUnsigned_imm12_iff (s : State) (r : RegNum) (imm : BitVec 12) :
    ltUnsigned s.xlen (s.x r) (imm12 s imm) = true ↔ (s.x r).toNat < wrap s imm.toInt := by
  have himm : (narrow s.xlen (imm12 s imm)).toNat = wrap s imm.toInt :=
    narrow_toNat_eq_wrap (sextX_modEq s imm (by decide))
  rw [ltUnsigned, decide_eq_true_iff, State.narrow_x, himm]

/-- Settles O27: the four comparisons, on numbers. -/
theorem compareWritesOneOrZero : Obligations.CompareWritesOneOrZero := by
  intro s rd rs1 rs2 imm
  exact ⟨coded_encR rfl, coded_encI rfl, coded_encR rfl, coded_encI rfl,
    writesRd_boolWord rfl (ltSigned_x_iff s rs1 rs2), writesRd_boolWord rfl (ltSigned_imm12_iff s rs1 imm),
    writesRd_boolWord rfl (ltUnsigned_x_iff s rs1 rs2), writesRd_boolWord rfl (ltUnsigned_imm12_iff s rs1 imm)⟩

end Sys2Proof.Proofs.Compare
end

section
/-! PROOFS. The family `43_branches_jumps.md`. A transfer of control is read once, on numbers: where it goes, what it
leaves alone and when it raises (R180). A branch or jump is then its condition, its target and its link (R181-R188). -/

namespace Sys2Proof.Proofs.ControlTransfer

open Sys2Proof.Machine Sys2Proof.Claims Sys2Proof.Proofs.Exceptions Sys2Proof.Proofs.FixedFields
open Sys2Proof.Proofs.Congruences Sys2Proof.Proofs.Compare

/-! ## The fixed fields of the words of formats B and J (30_encoding.md R120) -/

theorem coded_encB {i : Instr} {off : BitVec 13} {rs2 rs1 : RegNum} {f3 : BitVec 3} {op : BitVec 7} {m : InstrWord}
    (henc : encode i = encB off rs2 rs1 f3 op) (hm : encB 0 0 0 f3 op = m := by rfl) : Coded i m 0x0000707F := by
  rw [Coded, henc]
  exact (encB_masked off rs2 rs1 f3 op).trans hm

theorem coded_encJ {i : Instr} {off : BitVec 21} {rd : RegNum} {op : BitVec 7} {m : InstrWord}
    (henc : encode i = encJ off rd op) (hm : encJ 0 0 op = m := by rfl) : Coded i m 0x0000007F := by
  rw [Coded, henc]
  exact (encJ_masked off rd op).trans hm

/-! ## The targets, as numbers -/

/-- The target of a branch or of JAL is the wrapped sum with the signed offset (R180). -/
theorem relativeTarget_toNat (s : State) {n : Nat} (off : BitVec n) (hn : n ≤ 32) :
    (relativeTarget s off).toNat = relative s off :=
  narrow_toNat_eq_wrap <|
    (toNat_add_modEq (modulus_dvd_two_pow s) s.pc _).trans ((sextX_modEq s off hn).add_left _)

/-- Clearing bit 0 rounds down to a multiple of 2. -/
theorem clearBit0_toNat (v : Word) : (clearBit0 v).toNat = v.toNat - v.toNat % 2 := by
  have hshift : clearBit0 v = v >>> 1 <<< 1 := by
    apply BitVec.eq_of_getLsbD_eq
    intro k hk
    rw [clearBit0, getLsbD_setBit _ _ _ _ hk, BitVec.getLsbD_shiftLeft, BitVec.getLsbD_ushiftRight]
    cases k with
    | zero => rfl
    | succ j => simp [hk, Nat.add_comm 1]
  rw [hshift, BitVec.toNat_shiftLeft, BitVec.toNat_ushiftRight]
  have := v.isLt
  omega

/-- The target of JALR (R188). -/
theorem jalrTarget_toNat (s : State) (rs1 : RegNum) (imm : BitVec 12) :
    (jalrTarget s rs1 imm).toNat = viaRegister s rs1 imm := by
  rw [jalrTarget, clearBit0_toNat, narrow_toNat_eq_wrap (add_imm12_modEq s _ imm), viaRegister]

/-! ## A transfer of control (R180) -/

/-- A state with other general registers, `pc` and `minstret` has nothing else changed. -/
theorem plain_of_regs_pc_minstret (s : State) (regs : Vector Word 32) (pc minstret : Word) :
    Plain s { s with regs, pc, minstret } where
  control := by constructor <;> rfl
  outside := by constructor <;> rfl
  bytes := fun _ => rfl
  priv := rfl
  wfiWait := rfl
  stale := rfl
  history := rfl

theorem plain_retireTo (s : State) (t : Word) : Plain s (s.retireTo t) :=
  plain_of_regs_pc_minstret s s.regs t _

theorem plain_setX_retireTo (s : State) (rd : RegNum) (v t : Word) : Plain s ((s.setX rd v).retireTo t) :=
  plain_of_regs_pc_minstret s _ t _

/-- The exception of a misaligned target, in the terms of the statements. -/
theorem traps_of_raise_misaligned {i : Instr} {s : State} {t : Word} (h : exec i s = raise .instrAddrMisaligned t s) :
    Traps i s .instrAddrMisaligned t.toNat := by
  rw [Traps, h]
  exact takesException_raise s s.postponed .instrAddrMisaligned t

/-- A branch of the model obeys the law of branches, for the condition that its comparison decides. -/
theorem branchLaw_of_branch {i : Instr} {s : State} {off : BitVec 13} {b : Bool} {cond : Prop}
    (hexec : exec i s = branch b off s) (hb : b = true ↔ cond) : BranchLaw i s off cond := by
  rw [← hb, BranchLaw, ← relativeTarget_toNat s off (by decide)]
  cases b with
  | false =>
    have hgoes : GoesOn s s.retire := ⟨s.nextPc_toNat, rfl⟩
    exact ⟨fun _ => ⟨s.retire, hexec, fun _ => rfl, hgoes, plain_retireTo s _⟩, nofun, nofun⟩
  | true =>
    have htaken : exec i s = transfer none (relativeTarget s off) s := hexec
    obtain ⟨hmis, h⟩ | ⟨hal, -, h⟩ | ⟨-, -, ⟨⟩, -⟩ := transfer_cases none (relativeTarget s off) s
    · exact ⟨absurd rfl, fun _ hal => absurd hal hmis, fun _ _ => traps_of_raise_misaligned (htaken.trans h)⟩
    · have hnext : exec i s = .next (s.retireTo (relativeTarget s off)) := htaken.trans h
      exact ⟨absurd rfl, fun _ _ => ⟨_, hnext, fun _ => rfl, rfl, rfl, plain_retireTo s _⟩,
        fun _ hmis => absurd hal hmis⟩

/-- A linking transfer of the model obeys the law of jumps. -/
theorem jumpLaw_of_transfer {i : Instr} {s : State} {rd : RegNum} {t : Word}
    (hexec : exec i s = transfer (some rd) t s) : JumpLaw i s rd t.toNat := by
  obtain ⟨hmis, h⟩ | ⟨-, ⟨⟩, -⟩ | ⟨hal, link, hlink, h⟩ := transfer_cases (some rd) t s
  · exact ⟨fun hal => absurd hal hmis, fun _ => traps_of_raise_misaligned (hexec.trans h)⟩
  · obtain rfl : rd = link := Option.some.inj hlink
    refine ⟨fun _ => ⟨_, hexec.trans h, fun hrd => ?_, fun q hq => ?_, rfl, rfl, plain_setX_retireTo s rd _ t⟩,
      fun hmis => absurd hal hmis⟩
    · rw [State.x_retireTo, s.x_setX_self rd _ hrd, State.nextPc, narrow_narrow]
      exact s.nextPc_toNat
    · rw [State.x_retireTo, s.x_setX_other _ hq]

/-! ## The branches and the jumps -/

theorem sameX_x_iff (s : State) (r q : RegNum) : sameX s.xlen (s.x r) (s.x q) = true ↔ s.x r = s.x q := by
  rw [sameX, State.narrow_x, State.narrow_x, beq_iff_eq]

/-- Settles O32: each branch by its comparison, the second of each pair by the negation of the first. -/
theorem branchesCompareAndGo : Obligations.BranchesCompareAndGo := by
  intro s rs1 rs2 off
  have heq := sameX_x_iff s rs1 rs2
  have hlt := ltSigned_x_iff s rs1 rs2
  have hltu := ltUnsigned_x_iff s rs1 rs2
  exact ⟨⟨coded_encB rfl, coded_encB rfl, coded_encB rfl, coded_encB rfl, coded_encB rfl, coded_encB rfl⟩,
    branchLaw_of_branch rfl heq, branchLaw_of_branch rfl (Bool.not_iff_not.trans heq.not),
    branchLaw_of_branch rfl hlt, branchLaw_of_branch rfl (Bool.not_iff_not.trans (hlt.not.trans not_lt)),
    branchLaw_of_branch rfl hltu, branchLaw_of_branch rfl (Bool.not_iff_not.trans (hltu.not.trans not_lt))⟩

/-- Settles O33: both jumps are linking transfers, of which the target is read as a number. -/
theorem jumpsLinkAndGo : Obligations.JumpsLinkAndGo := by
  intro s rd rs1 off imm
  rw [← relativeTarget_toNat s off (by decide), ← jalrTarget_toNat]
  exact ⟨coded_encJ rfl, coded_encI rfl, jumpLaw_of_transfer rfl, jumpLaw_of_transfer rfl⟩

end Sys2Proof.Proofs.ControlTransfer
end

section
/-! PROOFS. The family `44_synch_environment.md`. The fences change a field of the model's own and go on (R190, R191);
ECALL and EBREAK are a `raise`, read as the statements read a trap (R192, R193). -/

namespace Sys2Proof.Proofs.SynchEnvironment

open Sys2Proof.Machine Sys2Proof.Claims Sys2Proof.Proofs.Exceptions Sys2Proof.Proofs.FixedFields

/-! ## The fences -/

/-- Setting the event history and the stale bytes and going on touches nothing else but `pc` and `minstret`. -/
theorem frame_setSynch_retire (s : State) (ioHistory : List IoEvent) (staleFetch : List Nat) :
    let t := { s with ioHistory, staleFetch }.retire
    SameRegs s t ∧ GoesOn s t ∧ SameControl s t ∧ SameOutside s t ∧ SameBytes s t ∧
      t.priv = s.priv ∧ t.wfiWait = s.wfiWait := by
  have hregs : SameRegs s { s with ioHistory, staleFetch }.retire := State.x_congr rfl rfl
  have hgoes : GoesOn s { s with ioHistory, staleFetch }.retire := ⟨s.nextPc_toNat, rfl⟩
  exact ⟨hregs, hgoes, by constructor <;> rfl, by constructor <;> rfl, fun _ => rfl, rfl, rfl⟩

/-- Settles O34: FENCE sets the event history alone, FENCE.I the stale bytes alone. -/
theorem fencesGoOn : Obligations.FencesGoOn := by
  intro s fm pred succ imm rs1 rd
  refine ⟨coded_encI rfl, coded_encI rfl, ?fence, ?fenceI⟩
  case fence =>
    exact ⟨_, rfl, rfl, rfl, frame_setSynch_retire s (s.ioHistory ++ [IoEvent.fence pred succ]) s.staleFetch⟩
  case fenceI => exact ⟨_, rfl, rfl, rfl, frame_setSynch_retire s s.ioHistory []⟩

/-! ## The environment -/

/-- An instruction whose meaning is `raise` traps as the statements say. -/
theorem traps_of_raise {i : Instr} {s : State} {e : Exc} {v : Word} (h : exec i s = raise e v s) :
    Traps i s e v.toNat := by
  rw [Traps, h]
  exact takesException_raise s s.postponed e v

/-- ECALL raises the environment call of the mode with trap value 0 (R192). -/
theorem traps_ecall {s : State} {p : Priv} (hp : s.priv = p) : Traps .ecall s (ecallExc p) 0 := by
  subst hp
  exact traps_of_raise (v := 0) rfl

/-- EBREAK raises Breakpoint with the trap value the open draw picks (R193, assumption log 12). -/
theorem traps_ebreak (s : State) :
    Traps .ebreak s .breakpoint (if s.draw.ebreakTvalPc then s.pc else 0).toNat :=
  traps_of_raise rfl

/-- Settles O35: ECALL in each mode, EBREAK for each answer of the draw. -/
theorem ecallAndEbreakTrap : Obligations.EcallAndEbreakTrap := by
  intro s
  refine ⟨rfl, rfl, traps_ecall, traps_ecall, traps_ecall, ?ebreak⟩
  case ebreak =>
    have h := traps_ebreak s
    split at h
    · exact .inr h
    · exact .inl h

end Sys2Proof.Proofs.SynchEnvironment
end

section
/-! PROOFS. The family `45_csr.md`, part 1: what a write to a control register leaves alone (R200). -/

namespace Sys2Proof.Proofs.CsrWrites

open Sys2Proof.Machine Sys2Proof.Claims

/-! ## Outside the control registers -/

/-- Nothing outside the control registers differs between the two states. -/
structure SameButCsrs (s u : State) : Prop where
  regs : SameRegs s u
  bytes : SameBytes s u
  outside : SameOutside s u
  pc : u.pc = s.pc
  priv : u.priv = s.priv
  wfiWait : u.wfiWait = s.wfiWait
  stale : u.staleFetch = s.staleFetch
  history : u.ioHistory = s.ioHistory

theorem SameButCsrs.refl (s : State) : SameButCsrs s s :=
  ⟨fun _ => rfl, fun _ => rfl, by constructor <;> rfl, rfl, rfl, rfl, rfl, rfl⟩

theorem SameButCsrs.xlen {s u : State} (h : SameButCsrs s u) : u.xlen = s.xlen :=
  congrArg Platform.xlen h.outside.platform

theorem sameButCsrs_csrWrite {c : Csr} {v : Word} {s u : State} (hw : csrWrite c v s = .ok u) : SameButCsrs s u where
  regs := State.x_congr (csrWrite_regs hw) (csrWrite_platform hw)
  bytes a := by rw [csrWrite_mem hw]
  outside := ⟨csrWrite_platform hw, csrWrite_ext hw, csrWrite_draw hw, csrWrite_script hw, csrWrite_drawIndex hw,
    csrWrite_postponed hw⟩
  pc := csrWrite_pc hw
  priv := csrWrite_priv hw
  wfiWait := csrWrite_wfiWait hw
  stale := csrWrite_staleFetch hw
  history := csrWrite_ioHistory hw

/-! ## The other control registers -/

/-- Each stored field is kept from `s` to `u`, unless register `c` shares storage with the register the field is behind.
A field that is plainly the same in both states need not be named. -/
structure KeepsUnshared (c : Csr) (s u : State) : Prop where
  mstatus : shares c .mstatus = false → u.mstatus = s.mstatus := by intro _; rfl
  medeleg : shares c .medeleg = false → u.medeleg = s.medeleg := by intro _; rfl
  mideleg : shares c .mideleg = false → u.mideleg = s.mideleg := by intro _; rfl
  mie : shares c .mie = false → u.mie = s.mie := by intro _; rfl
  mtvec : shares c .mtvec = false → u.mtvec = s.mtvec := by intro _; rfl
  stvec : shares c .stvec = false → u.stvec = s.stvec := by intro _; rfl
  mcounteren : shares c .mcounteren = false → u.mcounteren = s.mcounteren := by intro _; rfl
  scounteren : shares c .scounteren = false → u.scounteren = s.scounteren := by intro _; rfl
  mscratch : shares c .mscratch = false → u.mscratch = s.mscratch := by intro _; rfl
  sscratch : shares c .sscratch = false → u.sscratch = s.sscratch := by intro _; rfl
  mepc : shares c .mepc = false → u.mepc = s.mepc := by intro _; rfl
  sepc : shares c .sepc = false → u.sepc = s.sepc := by intro _; rfl
  mcause : shares c .mcause = false → u.mcause = s.mcause := by intro _; rfl
  scause : shares c .scause = false → u.scause = s.scause := by intro _; rfl
  mtval : shares c .mtval = false → u.mtval = s.mtval := by intro _; rfl
  stval : shares c .stval = false → u.stval = s.stval := by intro _; rfl
  mcycle : shares c .mcycle = false → u.mcycle = s.mcycle := by intro _; rfl
  minstret : shares c .minstret = false → u.minstret = s.minstret := by intro _; rfl
  ssip : shares c .mip = false → u.ssip = s.ssip := by intro _; rfl
  stip : shares c .mip = false → u.stip = s.stip := by intro _; rfl
  seipSw : shares c .mip = false → u.seipSw = s.seipSw := by intro _; rfl

/-- A write reaches no field but those of the registers it shares storage with; the fields named are those it sets. -/
theorem keepsUnshared_csrWrite {c : Csr} {v : Word} {s u : State} (hw : csrWrite c v s = .ok u) :
    KeepsUnshared c s u := by
  cases c
  case satp => rw [Invariant.csrWrite_satp_ok hw]; exact {}
  all_goals cases hw
  case mstatus | sstatus => exact { mstatus := nofun }
  case medeleg => exact { medeleg := nofun }
  case mideleg => exact { mideleg := nofun }
  case mie | sie => exact { mie := nofun }
  case mtvec => exact { mtvec := nofun }
  case stvec => exact { stvec := nofun }
  case mcounteren => exact { mcounteren := nofun }
  case scounteren => exact { scounteren := nofun }
  case mscratch => exact { mscratch := nofun }
  case sscratch => exact { sscratch := nofun }
  case mepc => exact { mepc := nofun }
  case sepc => exact { sepc := nofun }
  case mcause => exact { mcause := nofun }
  case scause => exact { scause := nofun }
  case mtval => exact { mtval := nofun }
  case stval => exact { stval := nofun }
  case mcycle | mcycleh => exact { mcycle := nofun }
  case minstret | minstreth => exact { minstret := nofun }
  case mip => exact { ssip := nofun, stip := nofun, seipSw := nofun }
  case sip => exact { ssip := nofun }
  all_goals exact {}

/-- `sie` shows bits of `mie` under `mideleg` (10_state.md R38). -/
theorem shares_sie (c : Csr) : shares c .sie = (shares c .mie || shares c .mideleg) := by cases c <;> rfl

/-- `sip` shows bits of `mip` under `mideleg` (10_state.md R38). -/
theorem shares_sip (c : Csr) : shares c .sip = (shares c .mip || shares c .mideleg) := by cases c <;> rfl

/-- The pending bits are assembled from the three of them that are stored and the sampled lines (10_state.md R37). -/
theorem mip_congr {s u : State} (hssip : u.ssip = s.ssip) (hstip : u.stip = s.stip) (hseip : u.seipSw = s.seipSw)
    (hext : u.ext = s.ext) : u.mip = s.mip := by
  simp only [State.mip, mipWith, hssip, hstip, hseip, hext]

theorem csrRead_csrWrite_unshared {c d : Csr} {v : Word} {s u : State} (hw : csrWrite c v s = .ok u)
    (h : shares c d = false) : csrRead d u = csrRead d s := by
  have keep := keepsUnshared_csrWrite hw
  have hxlen : u.xlen = s.xlen := (sameButCsrs_csrWrite hw).xlen
  have hext : u.ext = s.ext := csrWrite_ext hw
  have hmip (hm : shares c .mip = false) : u.mip = s.mip :=
    mip_congr (keep.ssip hm) (keep.stip hm) (keep.seipSw hm) hext
  cases d <;> simp only [csrRead, hxlen]
  case mstatus | sstatus => rw [keep.mstatus h]
  case medeleg => rw [keep.medeleg h]
  case mideleg => rw [keep.mideleg h]
  case mie => rw [keep.mie h]
  case mip => rw [hmip h]
  case sie =>
    obtain ⟨hmie, hdeleg⟩ := Bool.or_eq_false_iff.mp ((shares_sie c).symm.trans h)
    rw [smask, smask, keep.mie hmie, keep.mideleg hdeleg]
  case sip =>
    obtain ⟨hpend, hdeleg⟩ := Bool.or_eq_false_iff.mp ((shares_sip c).symm.trans h)
    rw [smask, smask, hmip hpend, keep.mideleg hdeleg]
  case mtvec => rw [keep.mtvec h]
  case stvec => rw [keep.stvec h]
  case mcounteren => rw [keep.mcounteren h]
  case scounteren => rw [keep.scounteren h]
  case mscratch => rw [keep.mscratch h]
  case sscratch => rw [keep.sscratch h]
  case mepc => rw [keep.mepc h]
  case sepc => rw [keep.sepc h]
  case mcause => rw [keep.mcause h]
  case scause => rw [keep.scause h]
  case mtval => rw [keep.mtval h]
  case stval => rw [keep.stval h]
  case mcycle | mcycleh | cycle | cycleh => rw [keep.mcycle h]
  case minstret | minstreth | instret | instreth => rw [keep.minstret h]
  case time | timeh => rw [hext]

/-- Settles O46: a register reads its own fields and the sampled inputs alone, and the write reaches neither. -/
theorem csrWriteLeavesOthers : Obligations.CsrWriteLeavesOthers := by
  intro c d s u v hw
  obtain ⟨hregs, hbytes, houtside, hpc, hpriv, hwait, hstale, hhistory⟩ := sameButCsrs_csrWrite hw
  have hm : u.mtvecWritten = true ↔ s.mtvecWritten = true ∨ c = .mtvec := by
    rw [csrWrite_mtvecWritten hw, Bool.or_eq_true, decide_eq_true_eq]
  have hs : u.stvecWritten = true ↔ s.stvecWritten = true ∨ c = .stvec := by
    rw [csrWrite_stvecWritten hw, Bool.or_eq_true, decide_eq_true_eq]
  exact ⟨csrRead_csrWrite_unshared hw, hm, hs, hregs, hbytes, houtside, hpc, hpriv, hwait, hstale, hhistory⟩

end Sys2Proof.Proofs.CsrWrites
end

section
/-! PROOFS. The family `45_csr.md`, part 2: the six CSR instructions (R200-R206). All are `csrOp` with their own mask,
so its law is proved once. -/

namespace Sys2Proof.Proofs.CsrInstructions

open Sys2Proof.Machine Sys2Proof.Claims Sys2Proof.Proofs.CsrMap Sys2Proof.Proofs.CsrWrites Sys2Proof.Proofs.FixedFields

/-! ## What `csrOp` answers -/

section
variable {i : Instr} {s : State} {rd : RegNum} {a : BitVec 12} {w : Bool} {f : Word → Word}

/-- Where the check fails, the instruction is illegal. -/
theorem trapsIllegal_of_csrOp (hexec : exec i s = csrOp i rd a w f s) (h : ¬CsrPasses s a w) : TrapsIllegal i s := by
  obtain ⟨-, hillegal⟩ | ⟨c, hc, -⟩ := csrOp_cases i rd a w f s
  · rw [TrapsIllegal, Traps, hexec, hillegal]
    exact IllegalWords.takesException_raiseIllegal s s.postponed (encode i)
  · obtain ⟨hallowed, hat⟩ := csrCheck_some.mp hc
    exact absurd ((csrPasses_iff s a w).mpr ⟨Option.isSome_of_eq_some hat, hallowed⟩) h

/-- Where the check passes and the write is not the refused one, the instruction goes on from the state `u` after the
write, or from `s` itself if it does not write. -/
theorem csrOp_of_passes {c : Csr} (hpass : CsrPasses s a w) (hat : csrAt s.xlen a = some c)
    (hsatp : c = .satp → w = true → narrow s.xlen (f (csrModifyBase c s)) = 0) :
    ∃ u, (w = false → u = s) ∧ (w = true → csrWrite c (f (csrModifyBase c s)) s = .ok u) ∧
      csrOp i rd a w f s = .next (csrRetire c w (u.setX rd (csrRead c s))) := by
  have hcheck := csrCheck_of_passes hpass hat
  cases w with
  | false => exact ⟨s, fun _ => rfl, nofun, by simp only [csrOp, hcheck, Bool.false_eq_true, if_false]⟩
  | true =>
    obtain ⟨u, hu⟩ := csrWrite_ok fun hc => hsatp hc rfl
    exact ⟨u, nofun, fun _ => hu, by simp only [csrOp, hcheck, if_true, hu]⟩

end

/-! ## The end of a CSR instruction -/

theorem sameControl_csrRetire_setX (c : Csr) (w : Bool) (u : State) (rd : RegNum) (v : Word) :
    SameControl u (csrRetire c w (u.setX rd v)) := by
  constructor <;> simp

/-- The write of `rd` and the end of the instruction touch nothing outside general registers, `pc` and `minstret`. -/
theorem sameOutside_csrRetire_setX {s u : State} (h : SameOutside s u) (c : Csr) (w : Bool) (rd : RegNum) (v : Word) :
    SameOutside s (csrRetire c w (u.setX rd v)) := by
  obtain ⟨hplatform, hext, hdraw, hscript, hindex, hpostponed⟩ := h
  constructor <;> simpa

theorem x_csrRetire (c : Csr) (w : Bool) (u : State) (q : RegNum) : (csrRetire c w u).x q = u.x q :=
  State.x_congr (csrRetire_regs c w u) (csrRetire_platform c w u) q

theorem countsItself_iff (c : Csr) : countsItself c = true ↔ c = .minstret ∨ c = .minstreth := by
  simp [countsItself]

/-- An instruction that is `csrOp` obeys the law: it writes what `f` makes of the value to be modified. -/
theorem csrLaw_of_csrOp {i : Instr} {s : State} {rd : RegNum} {a : BitVec 12} {w : Bool} {f : Word → Word}
    (hexec : exec i s = csrOp i rd a w f s) : CsrLaw i s rd a w fun c => f (csrModifyBase c s) := by
  refine ⟨trapsIllegal_of_csrOp hexec, fun c hpass hat hsatp => ?_⟩
  obtain ⟨u, hread, hwrite, hop⟩ := csrOp_of_passes (i := i) (rd := rd) hpass hat hsatp
  have hsame : SameButCsrs s u := by
    cases w with
    | false => rw [hread rfl]; exact .refl s
    | true => exact sameButCsrs_csrWrite (hwrite rfl)
  refine ⟨u, _, hread, hwrite, hexec.trans hop, fun hrd => ?rd, fun q hq => ?others, ?pc, ?minstret,
    sameControl_csrRetire_setX c w u rd _, sameOutside_csrRetire_setX hsame.outside c w rd _, fun k => ?bytes,
    ?priv, ?wfiWait, ?stale, ?history⟩
  case rd =>
    rw [x_csrRetire, State.x_setX_self u rd _ hrd, hsame.xlen]
    exact narrow_csrRead c s
  case others => rw [x_csrRetire, State.x_setX_other u _ hq, hsame.regs q]
  case pc =>
    rw [csrRetire_pc, State.nextPc_toNat, State.setX_pc, State.setX_xlen, hsame.pc, hsame.xlen, pcPlus4, modulus]
  case minstret => simp only [csrRetire_minstret, State.setX_minstret, Bool.and_eq_true, countsItself_iff]
  case bytes => rw [csrRetire_mem, State.setX_mem, hsame.bytes k]
  case priv => rw [csrRetire_priv, State.setX_priv, hsame.priv]
  case wfiWait => rw [csrRetire_wfiWait, State.setX_wfiWait, hsame.wfiWait]
  case stale => rw [csrRetire_staleFetch, State.setX_staleFetch, hsame.stale]
  case history => rw [csrRetire_ioHistory, State.setX_ioHistory, hsame.history]

/-! ## The operands of the six instructions -/

/-- Bit 9 is all that the value modified and the value read differ in (10_state.md R37). -/
theorem setBit_mipWith (s : State) (b b' : Bool) : setBit (mipWith s b) 9 b' = mipWith s b' := by
  apply BitVec.eq_of_getLsbD_eq
  intro k hk
  rw [getLsbD_setBit _ _ _ _ hk, getLsbD_mipWith s b k hk, getLsbD_mipWith s b' k hk]
  by_cases h9 : k = 9
  · subst h9; rfl
  · simp only [if_neg h9]

/-- The set and clear forms modify the value read, but for bit 9 of `mip` (10_state.md R37). -/
theorem csrModifyBase_eq_modified (c : Csr) (s : State) : csrModifyBase c s = modified c s := by
  cases c
  case mip => rw [modified, if_pos rfl, RegisterValues.csrRead_mip, RegisterValues.csrModifyBase_mip, setBit_mipWith]
  all_goals rfl

/-- The immediate is the 5-bit number itself in every XLEN (30_encoding.md R114). -/
theorem uimm5_eq_ofNat (s : State) (r : RegNum) : uimm5 s r = BitVec.ofNat 64 r.toNat := by
  have hr := r.isLt
  have hnarrow : narrow s.xlen (uimm5 s r) = uimm5 s r := narrow_narrow _ _
  apply BitVec.eq_of_toNat_eq
  rw [← hnarrow, narrow_uimm5_toNat, BitVec.toNat_ofNat, Nat.mod_eq_of_lt (by omega)]

section
variable (s : State) (rd r : RegNum) (a : BitVec 12)

theorem csrLaw_csrrw : CsrLaw (.csrrw rd a r) s rd a true fun _ => s.x r :=
  csrLaw_of_csrOp (exec_csrrw_eq rd r a s)

theorem csrLaw_csrrs : CsrLaw (.csrrs rd a r) s rd a (r != 0#5) fun c => modified c s ||| s.x r := by
  simp only [← csrModifyBase_eq_modified]
  exact csrLaw_of_csrOp (exec_csrrs_eq rd r a s)

theorem csrLaw_csrrc : CsrLaw (.csrrc rd a r) s rd a (r != 0#5) fun c => modified c s &&& ~~~s.x r := by
  simp only [← csrModifyBase_eq_modified]
  exact csrLaw_of_csrOp (f := fun t => t &&& ~~~s.x r) rfl

theorem csrLaw_csrrwi : CsrLaw (.csrrwi rd a r) s rd a true fun _ => BitVec.ofNat 64 r.toNat := by
  rw [← uimm5_eq_ofNat s r]
  exact csrLaw_of_csrOp (exec_csrrwi_eq rd r a s)

theorem csrLaw_csrrsi :
    CsrLaw (.csrrsi rd a r) s rd a (r != 0#5) fun c => modified c s ||| BitVec.ofNat 64 r.toNat := by
  simp only [← csrModifyBase_eq_modified, ← uimm5_eq_ofNat s r]
  exact csrLaw_of_csrOp (exec_csrrsi_eq rd r a s)

theorem csrLaw_csrrci :
    CsrLaw (.csrrci rd a r) s rd a (r != 0#5) fun c => modified c s &&& ~~~BitVec.ofNat 64 r.toNat := by
  simp only [← csrModifyBase_eq_modified, ← uimm5_eq_ofNat s r]
  exact csrLaw_of_csrOp (f := fun t => t &&& ~~~uimm5 s r) rfl

end

/-- Settles O42: the fixed fields of format I, and each instruction's law from that of `csrOp`. -/
theorem csrInstructionsReadAndWrite : Obligations.CsrInstructionsReadAndWrite := by
  intro s rd r csr
  exact ⟨⟨coded_encI rfl, coded_encI rfl, coded_encI rfl, coded_encI rfl, coded_encI rfl, coded_encI rfl⟩,
    csrLaw_csrrw s rd r csr, csrLaw_csrrs s rd r csr, csrLaw_csrrc s rd r csr, csrLaw_csrrwi s rd r csr,
    csrLaw_csrrsi s rd r csr, csrLaw_csrrci s rd r csr⟩

/-! ## Completion -/

/-- `satp` stands at its own address only (10_state.md R29). -/
theorem eq_of_csrAt_satp {xl : Xlen} {a : BitVec 12} (h : csrAt xl a = some .satp) : a = 0x180#12 := by
  obtain ⟨ha, -⟩ := rowOk_of_csrAt h
  exact BitVec.eq_of_toNat_eq ha

/-- An instruction with this law completes where the check passes, if at the address of `satp` the value it writes there
is 0. -/
theorem csrCompletes_of_csrLaw {i : Instr} {s : State} {rd : RegNum} {a : BitVec 12} {w : Bool} {new : Csr → Word}
    (law : CsrLaw i s rd a w new) (hpass : CsrPasses s a w) (hsatp : a = 0x180#12 → new .satp = 0#64) :
    CsrCompletes i s rd a := by
  obtain ⟨-, hcompletes⟩ := law
  obtain ⟨c, hc⟩ := Option.isSome_iff_exists.mp hpass.1
  have hzero : c = .satp → w = true → narrow s.xlen (new c) = 0 := by
    rintro rfl -
    rw [hsatp (eq_of_csrAt_satp hc)]
    exact narrow_zero _
  obtain ⟨u, t, -, -, hexec, hrd, -, hpc, -, -, -, -, hpriv, -, -, -⟩ := hcompletes c hpass hc hzero
  exact ⟨c, t, hc, hexec, hrd, hpc, hpriv⟩

/-- `satp` reads 0, so the set forms write their mask there and the clear forms 0 (10_state.md R46). -/
theorem modified_satp (s : State) : modified .satp s = 0#64 :=
  (csrModifyBase_eq_modified .satp s).symm.trans (csrModifyBase_satp s)

/-- Settles O60: what each instruction writes to `satp` is 0, by its hypothesis or because it only clears bits. -/
theorem csrInstructionsComplete : Obligations.CsrInstructionsComplete := by
  intro s rd r csr
  refine ⟨fun hpass h0 => ?csrrw, fun hpass h0 => ?csrrs, fun hpass => ?csrrc, fun hpass h0 => ?csrrwi,
    fun hpass h0 => ?csrrsi, fun hpass => ?csrrci⟩
  case csrrw => exact csrCompletes_of_csrLaw (csrLaw_csrrw s rd r csr) hpass h0
  case csrrs =>
    refine csrCompletes_of_csrLaw (csrLaw_csrrs s rd r csr) hpass fun ha => ?_
    rw [modified_satp, BitVec.zero_or, h0 ha]
    rfl
  case csrrc =>
    exact csrCompletes_of_csrLaw (csrLaw_csrrc s rd r csr) hpass fun _ => by rw [modified_satp, BitVec.zero_and]
  case csrrwi =>
    refine csrCompletes_of_csrLaw (csrLaw_csrrwi s rd r csr) hpass fun ha => ?_
    rw [h0 ha]
    rfl
  case csrrsi =>
    refine csrCompletes_of_csrLaw (csrLaw_csrrsi s rd r csr) hpass fun ha => ?_
    rw [modified_satp, BitVec.zero_or, h0 ha]
    rfl
  case csrrci =>
    exact csrCompletes_of_csrLaw (csrLaw_csrrci s rd r csr) hpass fun _ => by rw [modified_satp, BitVec.zero_and]

end Sys2Proof.Proofs.CsrInstructions
end

section
/-! PROOFS. The family `46_loads_stores.md`, part 1: what loads and stores share. The bytes of a range are one number,
an access that fails is a `raise`, and an access that succeeds leaves everything alone but its own fields (R210). -/

namespace Sys2Proof.Proofs.Accesses

open Sys2Proof.Machine Sys2Proof.Claims Sys2Proof.Proofs.SynchEnvironment Sys2Proof.Proofs.Congruences

/-! ## The effective address -/

/-- Settles O36: the sum is congruent to that of the base and the signed offset. -/
theorem effectiveAddressWraps : Obligations.EffectiveAddressWraps :=
  fun s rs1 imm => narrow_toNat_eq_wrap (add_imm12_modEq s (s.x rs1) imm)

/-! ## The bytes of a range as one number (20_memory.md R82) -/

theorem bytesAt_lt (m : Memory) (a n : Nat) : bytesAt m a n < 2 ^ (8 * n) := by
  rw [Nat.pow_mul]
  change bytesAt m a n < 256 ^ n
  induction n with
  | zero => exact Nat.one_pos
  | succ n ih =>
    have hbyte : (memByte m (a + n)).toNat * 256 ^ n ≤ 255 * 256 ^ n :=
      Nat.mul_le_mul_right _ (Nat.le_of_lt_succ (memByte m (a + n)).isLt)
    rw [bytesAt, Nat.pow_succ]
    omega

/-- The first byte of a range is the lowest of its number. -/
theorem bytesAt_succ_eq_first (m : Memory) (a n : Nat) :
    bytesAt m a (n + 1) = bytesAt m (a + 1) n * 256 + (memByte m a).toNat := by
  induction n with
  | zero => simp [bytesAt]
  | succ n ih =>
    rw [bytesAt, ih, bytesAt, show a + 1 + n = a + (n + 1) by omega]
    ring

/-- What the machine reads is the number the bytes make. -/
theorem readBytes_toNat (m : Memory) (a : Nat) {n : Nat} (hn : n ≤ 8) : (readBytes m a n).toNat = bytesAt m a n := by
  induction n generalizing a with
  | zero => rfl
  | succ n ih =>
    have hrest : (readBytes m (a + 1) n).toNat = bytesAt m (a + 1) n := ih (a + 1) (by omega)
    have hfit : bytesAt m (a + 1) n < 2 ^ 56 :=
      (bytesAt_lt m (a + 1) n).trans_le (Nat.pow_le_pow_right (by decide) (by omega))
    have hbyte : (memByte m a).toNat < 2 ^ 8 := (memByte m a).isLt
    rw [bytesAt_succ_eq_first, readBytes, BitVec.toNat_or, BitVec.toNat_setWidth, BitVec.toNat_shiftLeft, hrest,
      Nat.shiftLeft_eq, Nat.mod_eq_of_lt (by omega), Nat.mod_eq_of_lt (by omega), Nat.or_comm, ← Nat.shiftLeft_eq,
      ← Nat.shiftLeft_add_eq_or_of_lt hbyte, Nat.shiftLeft_eq]

/-! ## What an access leaves alone -/

/-- Going on after an access touches only what the access sets, `pc` and `minstret`. -/
theorem frame_access_retire (s : State) (regs : Vector Word 32) (mem : Memory) (staleFetch : List Nat)
    (ioHistory : List IoEvent) :
    let t := { s with regs, mem, staleFetch, ioHistory }.retire
    GoesOn s t ∧ SameControl s t ∧ SameOutside s t :=
  ⟨⟨s.nextPc_toNat, rfl⟩, by constructor <;> rfl, by constructor <;> rfl⟩

/-- On RV64 an instruction that RV64I adds has its meaning (30_encoding.md R125). -/
theorem onlyRV64_of_rv64 {s : State} (hx : s.xlen = .rv64) (i : Instr) (body : Result) : onlyRV64 i body s = body := by
  simp only [onlyRV64, hx]

end Sys2Proof.Proofs.Accesses
end

section
/-! PROOFS. The family `46_loads_stores.md`, part 2: the loads (R211-R217). One law for a load of any width, from what
its extension makes of an n-byte value; the seven loads differ in width and extension alone. -/

namespace Sys2Proof.Proofs.Loads

open Sys2Proof.Machine Sys2Proof.Claims Sys2Proof.Proofs.SynchEnvironment Sys2Proof.Proofs.MemoryWrites
open Sys2Proof.Proofs.FixedFields Sys2Proof.Proofs.RegisterWrites Sys2Proof.Proofs.Accesses

/-! ## The extensions -/

/-- The XLEN-bit value `r` reads as the `n`-byte value `k`: with its sign when `signed`. -/
def ReadsAs (s : State) (n : Nat) (signed : Bool) (r : Word) (k : Nat) : Prop :=
  if signed then asSigned s r = Int.bmod k (2 ^ (8 * n)) else r.toNat = k

/-- What `ext` makes of an `n`-byte value still reads as that value when a register has taken it. -/
def Extends (s : State) (ext : Word → Word) (n : Nat) (signed : Bool) : Prop :=
  ∀ v : Word, v.toNat < 2 ^ (8 * n) → ReadsAs s n signed (narrow s.xlen (ext v)) v.toNat

theorem thirtyTwo_le_bits (xl : Xlen) : 32 ≤ xl.bits := by cases xl <;> decide

/-- A signed value needs no more than its own width. -/
theorem bmod_toInt_of_le {k m : Nat} (h : k ≤ m) (v : BitVec k) : Int.bmod v.toInt (2 ^ m) = v.toInt := by
  have hpow : (2 : Int) ^ k ≤ 2 ^ m := pow_le_pow_right₀ (by decide) h
  have hlo : -(2 : Int) ^ k ≤ 2 * v.toInt := BitVec.le_two_mul_toInt
  have hhi : 2 * v.toInt < (2 : Int) ^ k := BitVec.two_mul_toInt_lt
  apply Int.bmod_eq_of_le_mul_two <;> push_cast <;> omega

/-- Sign extension keeps the signed reading of up to four bytes, on either XLEN (R211-R213). -/
theorem extends_sextLoad (s : State) {n : Nat} (hn : 8 * n ≤ 32) : Extends s (sextLoad (8 * n)) n true := by
  intro v _
  have hfits : Int.bmod (v.setWidth (8 * n)).toInt (2 ^ s.xlen.bits) = (v.setWidth (8 * n)).toInt :=
    bmod_toInt_of_le (hn.trans (thirtyTwo_le_bits s.xlen)) _
  calc asSigned s (sextX s.xlen (v.setWidth (8 * n)))
    _ = Int.bmod (v.setWidth (8 * n)).toInt (2 ^ s.xlen.bits) := by
      rw [asSigned, modulus, sextX_toNat s.xlen _ hn, Int.emod_bmod]
    _ = Int.bmod v.toNat (2 ^ (8 * n)) := by rw [hfits, BitVec.toInt_setWidth]

/-- Zero extension keeps the number of up to four bytes, on either XLEN (R214-R216). -/
theorem extends_zextLoad (s : State) {n : Nat} (hn : 8 * n ≤ 32) : Extends s (zextLoad (8 * n)) n false := by
  intro v hv
  have hwide : 2 ^ (8 * n) ≤ 2 ^ s.xlen.bits := Nat.pow_le_pow_right (by decide) (hn.trans (thirtyTwo_le_bits s.xlen))
  have hsame : zextLoad (8 * n) v = v := by
    apply BitVec.eq_of_toNat_eq
    rw [zextLoad, BitVec.toNat_setWidth, BitVec.toNat_setWidth, Nat.mod_eq_of_lt hv, Nat.mod_eq_of_lt v.isLt]
  change (narrow s.xlen (zextLoad (8 * n) v)).toNat = v.toNat
  rw [hsame, narrow_of_lt (hv.trans_le hwide)]

/-- A register of RV64 takes all eight bytes (R217). -/
theorem extends_id {s : State} (hx : s.xlen = .rv64) : Extends s id 8 false := by
  intro v _
  change (narrow s.xlen v).toNat = v.toNat
  rw [hx, narrow_rv64]

/-! ## A load of any width -/

section
variable {s : State} {n : Nat} {ext : Word → Word} {rd rs1 : RegNum} {imm : BitVec 12}

theorem load_of_memRead_error {e : Exc} (h : memRead s (effectiveAddress s rs1 imm) n = .error e) :
    load n ext rd rs1 imm s = raise e (effectiveAddress s rs1 imm) s := by simp only [load, h]

theorem load_of_memRead_ok {v : Word} {u : State} (h : memRead s (effectiveAddress s rs1 imm) n = .ok (v, u)) :
    load n ext rd rs1 imm s = .next (u.setX rd (ext v)).retire := by simp only [load, h]

variable {i : Instr} {signed : Bool}

theorem loadTraps_of_load (hexec : exec i s = load n ext rd rs1 imm s) : LoadTraps i s (addr s rs1 imm) n :=
  ⟨fun hmis => traps_of_raise (hexec.trans (load_of_memRead_error (memRead_misaligned hmis))),
    fun hal hdenied => traps_of_raise (hexec.trans (load_of_memRead_error (memRead_denied hal hdenied)))⟩

theorem loadMain_of_load (hexec : exec i s = load n ext rd rs1 imm s) (hn : n ≤ 8) (hext : Extends s ext n signed) :
    LoadMain i s rd rs1 imm n signed := by
  rintro hal ⟨r, hr, hrd, hk⟩
  have hrun : exec i s = writeAndRetire rd (ext (readBytes s.mem (addr s rs1 imm) n)) s :=
    hexec.trans (load_of_memRead_ok (memRead_main hal hr hrd hk))
  have hvalue := hext (readBytes s.mem (addr s rs1 imm) n)
  rw [readBytes_toNat _ _ hn] at hvalue
  exact writesRd_of_writeAndRetire hrun (hvalue (bytesAt_lt _ _ _))

theorem loadIo_of_load (hexec : exec i s = load n ext rd rs1 imm s) (hn : n ≤ 8) (hext : Extends s ext n signed) :
    LoadIo i s rd rs1 imm n signed := by
  rintro hal ⟨r, hr, hrd, hk⟩
  have hrun := hexec.trans (load_of_memRead_ok (memRead_io hal hr hrd hk))
  have hlow : (lowBytes n s.draw.ioValue).toNat < 2 ^ (8 * n) := by
    rw [lowBytes_toNat hn]
    exact Nat.mod_lt _ (Nat.two_pow_pos _)
  obtain ⟨hgoes, hcontrol, houtside⟩ :=
    frame_access_retire s (writeReg s.xlen s.regs rd (ext (lowBytes n s.draw.ioValue))) s.mem s.staleFetch
      (s.ioHistory ++ [.read (effectiveAddress s rs1 imm) n (lowBytes n s.draw.ioValue)])
  refine ⟨_, lowBytes n s.draw.ioValue, hrun, hlow, rfl, fun hrd0 => ?value, fun q hq => ?others, hgoes, hcontrol,
    houtside, fun _ => rfl, rfl, rfl, rfl⟩
  case value =>
    rw [State.x_retire, State.x_setX_self _ rd _ hrd0]
    exact hext _ hlow
  case others =>
    rw [State.x_retire, State.x_setX_other _ _ hq]
    exact State.x_congr rfl rfl q

theorem loadLaw_of_load (hexec : exec i s = load n ext rd rs1 imm s) (hn : n ≤ 8) (hext : Extends s ext n signed) :
    LoadLaw i s rd rs1 imm n signed :=
  ⟨loadMain_of_load hexec hn hext, loadIo_of_load hexec hn hext, loadTraps_of_load hexec⟩

end

/-! ## The instructions -/

/-- Settles O37: each load by its width and its extension. -/
theorem loadsByWidth : Obligations.LoadsByWidth := by
  intro s rd rs1 imm
  exact ⟨⟨coded_encI rfl, coded_encI rfl, coded_encI rfl, coded_encI rfl, coded_encI rfl⟩,
    loadLaw_of_load rfl (by decide) (extends_sextLoad s (n := 1) (by decide)),
    loadLaw_of_load rfl (by decide) (extends_sextLoad s (n := 2) (by decide)),
    loadLaw_of_load rfl (by decide) (extends_sextLoad s (n := 4) (by decide)),
    loadLaw_of_load rfl (by decide) (extends_zextLoad s (n := 1) (by decide)),
    loadLaw_of_load rfl (by decide) (extends_zextLoad s (n := 2) (by decide))⟩

/-- Settles O38: on RV64 each load by its width and its extension; on RV32 neither exists. -/
theorem wideLoads : Obligations.WideLoads := by
  intro s rd rs1 imm
  refine ⟨⟨coded_encI rfl, coded_encI rfl⟩, fun hx => ⟨?lwu, ?ld⟩, fun hx => ?rv32⟩
  case lwu =>
    exact loadLaw_of_load (onlyRV64_of_rv64 hx _ _) (by decide) (extends_zextLoad s (n := 4) (by decide))
  case ld => exact loadLaw_of_load (onlyRV64_of_rv64 hx _ _) (by decide) (extends_id hx)
  case rv32 => exact ⟨trapsIllegal_of_rv64Only hx rfl, trapsIllegal_of_rv64Only hx rfl⟩

end Sys2Proof.Proofs.Loads
end

section
/-! PROOFS. The family `46_loads_stores.md`, part 3: the stores (R218-R221). One law for a store of any width; the four
stores differ in width alone. -/

namespace Sys2Proof.Proofs.Stores

open Sys2Proof.Machine Sys2Proof.Claims Sys2Proof.Proofs.SynchEnvironment Sys2Proof.Proofs.MemoryWrites
open Sys2Proof.Proofs.RegisterWrites Sys2Proof.Proofs.Accesses

/-! ## The fixed fields of the words of format S (30_encoding.md R120) -/

theorem coded_encS {i : Instr} {imm : BitVec 12} {rs2 rs1 : RegNum} {f3 : BitVec 3} {op : BitVec 7} {m : InstrWord}
    (henc : encode i = encS imm rs2 rs1 f3 op) (hm : encS 0 0 0 f3 op = m := by rfl) : Coded i m 0x0000707F := by
  rw [Coded, henc]
  exact (encS_masked imm rs2 rs1 f3 op).trans hm

/-! ## A store of any width -/

section
variable {s : State} {n : Nat} {rs1 rs2 : RegNum} {imm : BitVec 12}

theorem store_of_memWrite_error {e : Exc} (h : memWrite s (effectiveAddress s rs1 imm) n (s.x rs2) = .error e) :
    store n rs1 rs2 imm s = raise e (effectiveAddress s rs1 imm) s := by simp only [store, h]

theorem store_of_memWrite_ok {u : State} (h : memWrite s (effectiveAddress s rs1 imm) n (s.x rs2) = .ok u) :
    store n rs1 rs2 imm s = .next u.retire := by simp only [store, h]

variable {i : Instr}

theorem storeTraps_of_store (hexec : exec i s = store n rs1 rs2 imm s) : StoreTraps i s (addr s rs1 imm) n :=
  ⟨fun hmis => traps_of_raise (hexec.trans (store_of_memWrite_error (memWrite_misaligned hmis))),
    fun hal hdenied => traps_of_raise (hexec.trans (store_of_memWrite_error (memWrite_denied hal hdenied)))⟩

/-- The stale bytes after a store of `n` bytes at `a` (20_memory.md R91). -/
theorem mem_staleAfterStore (l : List Nat) (a n : Nat) (x : Bool) (b : Nat) :
    b ∈ (if x then staleAdd l a n else l) ↔ b ∈ l ∨ x = true ∧ a ≤ b ∧ b < a + n := by
  cases x with
  | false => simp
  | true => simpa using mem_staleAdd.trans or_comm

theorem storeMain_of_store (hexec : exec i s = store n rs1 rs2 imm s) : StoreMain i s rs1 rs2 imm n := by
  intro r hal hr hw hk
  have hrun := hexec.trans (store_of_memWrite_ok (memWrite_main hal hr hw hk))
  obtain ⟨hgoes, hcontrol, houtside⟩ :=
    frame_access_retire s s.regs (writeBytes s.mem (addr s rs1 imm) n (s.x rs2))
      (if r.x then staleAdd s.staleFetch (addr s rs1 imm) n else s.staleFetch) s.ioHistory
  refine ⟨_, hrun, fun k hkn => ?inside, fun b hb => ?outside, fun b => ?stale, State.x_congr rfl rfl, hgoes,
    hcontrol, houtside, rfl, rfl, rfl⟩
  case inside => exact memByte_writeBytes_toNat s.mem _ hkn (s.x rs2)
  case outside => exact (memByte_writeBytes s.mem _ n (s.x rs2) b).trans (if_neg hb)
  case stale => exact mem_staleAfterStore s.staleFetch _ n r.x b

theorem storeIo_of_store (hexec : exec i s = store n rs1 rs2 imm s) (hn : n ≤ 8) : StoreIo i s rs1 rs2 imm n := by
  rintro hal ⟨r, hr, hw, hk⟩
  have hrun := hexec.trans (store_of_memWrite_ok (memWrite_io hal hr hw hk))
  obtain ⟨hgoes, hcontrol, houtside⟩ :=
    frame_access_retire s s.regs s.mem s.staleFetch
      (s.ioHistory ++ [.write (effectiveAddress s rs1 imm) n (lowBytes n (s.x rs2))])
  exact ⟨_, lowBytes n (s.x rs2), hrun, lowBytes_toNat hn (s.x rs2), rfl, State.x_congr rfl rfl, hgoes, hcontrol,
    houtside, fun _ => rfl, rfl, rfl, rfl⟩

theorem storeLaw_of_store (hexec : exec i s = store n rs1 rs2 imm s) (hn : n ≤ 8) : StoreLaw i s rs1 rs2 imm n :=
  ⟨storeMain_of_store hexec, storeIo_of_store hexec hn, storeTraps_of_store hexec⟩

end

/-! ## The instructions -/

/-- Settles O39: each store by its width; SD exists on RV64 alone. -/
theorem storesByWidth : Obligations.StoresByWidth := by
  intro s rs1 rs2 imm
  exact ⟨⟨coded_encS rfl, coded_encS rfl, coded_encS rfl, coded_encS rfl⟩, storeLaw_of_store rfl (by decide),
    storeLaw_of_store rfl (by decide), storeLaw_of_store rfl (by decide),
    fun hx => storeLaw_of_store (onlyRV64_of_rv64 hx _ _) (by decide), fun hx => trapsIllegal_of_rv64Only hx rfl⟩

end Sys2Proof.Proofs.Stores
end

section
/-! PROOFS. The family `60_exceptions.md`, part 1: what a step cannot do. User mode writes no control register (R340), and no
step from a legal state faults (R327). -/

namespace Sys2Proof.Proofs.StepLimits

open Sys2Proof.Machine Sys2Proof.Claims Sys2Proof.Proofs.StepEffects Sys2Proof.Proofs.Privilege
open Sys2Proof.Proofs.CsrMap Sys2Proof.Proofs.CsrInstructions Sys2Proof.Proofs.Accesses
open Sys2Proof.Proofs.ControlTransfer

/-! ## User mode -/

/-- Every register whose address user mode may access is read-only: bits [9:8] of the address are 00 in the counter shadows
alone, whose bits [11:10] are 11 (10_state.md R28, R29). -/
theorem readOnly_of_user_address {xl : Xlen} {c : Csr} (hex : existsOn xl c) (h : addressOf c / 256 % 4 = 0) :
    addressOf c / 1024 = 3 := by
  cases c
  case mhpmevent n | mhpmcounter n | hpmcounter n =>
    obtain ⟨h3, h31⟩ := hex
    simp only [addressOf] at h ⊢
    omega
  case mhpmcounterh n | hpmcounterh n =>
    obtain ⟨-, h3, h31⟩ := hex
    simp only [addressOf] at h ⊢
    omega
  all_goals revert h; decide

/-- No access check lets user mode write a control register (45_csr.md R200). -/
theorem csrCheck_write_user_ne_some {s : State} (hu : s.priv = .u) (a : BitVec 12) (c : Csr) :
    csrCheck s a true ≠ some c := by
  intro h
  obtain ⟨hallowed, hat⟩ := csrCheck_some.mp h
  obtain ⟨-, hlevel, hro, -⟩ := (csrPasses_iff s a true).mpr ⟨Option.isSome_of_eq_some hat, hallowed⟩
  obtain ⟨haddr, hex⟩ := rowOk_of_csrAt hat
  change a.toNat = addressOf c at haddr
  rw [hu, haddr] at hlevel
  rw [haddr] at hro
  exact hro ⟨rfl, readOnly_of_user_address hex (Nat.le_zero.mp hlevel)⟩

/-- A trap ends above user mode (60_exceptions.md R321). -/
theorem takeException_not_user (s : State) (e : Exc) (v : Word) : (s.takeException e v).priv ≠ .u := by
  obtain ⟨h, -⟩ | ⟨h, -⟩ := takeException_epc s e v <;> rw [h] <;> decide

theorem takeInterrupt_not_user (s : State) (i : Interrupt) : (s.takeInterrupt i).priv ≠ .u := by
  obtain ⟨h, -⟩ | ⟨h, -⟩ := takeInterrupt_epc s i <;> rw [h] <;> decide

/-- An instruction that user mode runs without a trap retires and writes no control register. -/
theorem effect_user_sameControl {i : Instr} {s t : State} (hu : s.priv = .u) (ht : t.priv = .u) (he : Effect i s t) :
    SameControl s t ∧ t.minstret = s.minstret + 1 := by
  have haccess (regs mem staleFetch ioHistory) :
      SameControl s { s with regs, mem, staleFetch, ioHistory }.retire := by
    obtain ⟨-, hcontrol, -⟩ := frame_access_retire s regs mem staleFetch ioHistory
    exact hcontrol
  cases he with
  | trap e v hv => exact absurd ht (takeException_not_user s e v)
  | csrWrites a c rd v new u hc hw => exact absurd hc (csrCheck_write_user_ne_some hu a c)
  | mret hi hp => rw [hu] at hp; cases hp
  | sret hi hp | wfi hp => exact absurd hu hp
  | csrReads a c rd v hc => exact ⟨sameControl_csrRetire_setX c false s rd v, csrRetire_minstret c false _⟩
  | jump p hp hn => exact ⟨(plain_retireTo s p).control, rfl⟩
  | link rd p hp hn => exact ⟨(plain_setX_retireTo s rd _ p).control, rfl⟩
  | load a n rd v w u hr =>
    obtain ⟨-, r, -, -, ⟨-, -, rfl⟩ | ⟨-, -, rfl⟩⟩ := memRead_ok hr <;> exact ⟨haccess _ _ _ _, rfl⟩
  | store rs1 rs2 imm n u hi hw =>
    obtain ⟨-, r, -, -, ⟨-, rfl⟩ | ⟨-, rfl⟩⟩ := memWrite_ok hw <;> exact ⟨haccess _ _ _ _, rfl⟩
  | write | goOn | fence | fenceI => exact ⟨haccess _ _ _ _, rfl⟩

/-- Settles O20: of the effects a step can have, those that write a control register need a higher mode or end in one. -/
theorem userModeKeepsControlRegisters : Obligations.UserModeKeepsControlRegisters := by
  intro s t hu hstep ht
  cases stepEffect_of_step hstep with
  | idle => exact ⟨by constructor <;> rfl, .inl rfl⟩
  | interrupt i hi => exact absurd ht (takeInterrupt_not_user _ i)
  | fetchTrap e v hv => exact absurd ht (takeException_not_user _ e v)
  | instruction i t hf he =>
    obtain ⟨hcontrol, hcount⟩ := effect_user_sameControl (s := (awake s).holdOff) hu ht he
    exact ⟨{ hcontrol with }, .inr hcount⟩

/-! ## No fault -/

theorem raise_ne_fault (e : Exc) (v : Word) (s : State) (f : Fault) : raise e v s ≠ .fault f := by
  obtain ⟨-, h⟩ | ⟨-, h⟩ := raise_cases e v s <;> rw [h] <;> nofun

theorem exec_ne_fault (i : Instr) (s : State) (f : Fault) : exec i s ≠ .fault f := by
  obtain ⟨t, h, -⟩ | h | h := exec_answers i s <;> rw [h] <;> nofun

/-- A fetched word faults neither as an instruction nor as an illegal word. -/
theorem runWord_ne_fault (w : InstrWord) (s : State) (f : Fault) : runWord w s ≠ .fault f := by
  obtain ⟨i, -, h⟩ | ⟨e, -, h⟩ := runWord_cases w s <;> rw [h]
  · exact exec_ne_fault i s f
  · exact raise_ne_fault _ _ s f

theorem fetch_ne_misaligned {s : State} (hal : s.pc.toNat % 4 = 0) : fetch s ≠ .misaligned := by
  obtain ⟨hmis, -⟩ | ⟨-, ⟨-, h⟩ | ⟨r, -, -, -, ⟨-, h⟩ | ⟨-, h⟩⟩⟩ := fetch_cases s
  · exact absurd hal hmis
  all_goals rw [h]; nofun

/-- The one fault is that of a misaligned `pc` (assumption log 16). -/
theorem fetchAndRun_ne_fault {s : State} (hal : s.pc.toNat % 4 = 0) (f : Fault) : fetchAndRun s ≠ .fault f := by
  obtain ⟨hmis, -⟩ | ⟨-, h⟩ | ⟨-, h⟩ | ⟨w, -, h⟩ := fetchAndRun_cases s
  · exact absurd hmis (fetch_ne_misaligned hal)
  · rw [h]; nofun
  · rw [h]; exact raise_ne_fault _ _ s f
  · rw [h]; exact runWord_ne_fault w s f

/-- Settles O16: the invariant keeps `pc` aligned, and nothing but the fetch of a misaligned `pc` faults. -/
theorem noStepFaults : Obligations.NoStepFaults := by
  intro s f hinv
  obtain ⟨-, ⟨-, hlow⟩, -⟩ := hinv
  have hal : s.pc.toNat % 4 = 0 := (Invariant.low2Zero_iff s.pc).mp hlow
  obtain ⟨-, -, h⟩ | ⟨-, h⟩ := step_cases s <;> rw [h]
  · nofun
  obtain ⟨i, -, h⟩ | ⟨-, h⟩ := runActive_cases { s.sample with wfiWait := false } <;> rw [h]
  · nofun
  · exact fetchAndRun_ne_fault (s := (awake s).holdOff) hal f

end Sys2Proof.Proofs.StepLimits
end

section
/-! PROOFS. The family `47_privileged.md`. Each of the four instructions has one legal outcome, read off the state it leaves,
and is illegal in the modes below it (R230-R234); a hart that waits idles or wakes (R232). -/

namespace Sys2Proof.Proofs.Privileged

open Sys2Proof.Machine Sys2Proof.Claims Sys2Proof.Proofs.IllegalWords Sys2Proof.Proofs.ControlTransfer

/-! ## Illegal in lower modes -/

/-- An instruction whose meaning is the illegal one traps as the statements say. -/
theorem trapsIllegal_of_raiseIllegal {i : Instr} {s : State} (h : exec i s = raiseIllegal (encode i) s) :
    TrapsIllegal i s := by
  rw [TrapsIllegal, Traps, h]
  exact takesException_raiseIllegal s s.postponed (encode i)

/-- The privilege check passes in M-mode, and in S-mode while the gate bit is 0 (47_privileged.md R234). -/
theorem sModeAllowed_iff (s : State) (gate : Nat) :
    sModeAllowed s gate = true ↔ s.priv = .m ∨ s.priv = .s ∧ s.mstatus.getLsbD gate = false := by
  unfold sModeAllowed
  cases s.priv <;> simp

theorem not_sModeAllowed_iff (s : State) (gate : Nat) :
    ¬sModeAllowed s gate = true ↔ s.priv = .u ∨ s.priv = .s ∧ s.mstatus.getLsbD gate = true := by
  unfold sModeAllowed
  cases s.priv <;> simp

/-! ## The returns -/

/-- The mode MRET returns to, as the number MPP holds when it is legal (10_state.md R24, R30). -/
theorem mppPriv_level {w : Word} (h : w.extractLsb' 11 2 ≠ 2#2) : (mppPriv w).level = (w.extractLsb' 11 2).toNat := by
  have h0 : (w.extractLsb' 11 2).getLsbD 0 = w.getLsbD 11 := by simp
  have h1 : (w.extractLsb' 11 2).getLsbD 1 = w.getLsbD 12 := by simp
  unfold mppPriv
  rw [← h0, ← h1]
  -- What is left is about the two bits of MPP alone: four values.
  revert h
  generalize w.extractLsb' 11 2 = mpp
  revert mpp
  decide

/-- A return touches `mstatus`, the mode, `pc` and `minstret` alone. -/
theorem frame_return (s : State) (mstatus pc : Word) (priv : Priv) :
    let t := { s with mstatus, priv }.retireTo pc
    t.minstret = s.minstret + 1 ∧ SameRegs s t ∧ SameControl { s with mstatus := t.mstatus } t ∧ SameOutside s t ∧
      SameBytes s t ∧ t.wfiWait = s.wfiWait ∧ t.staleFetch = s.staleFetch ∧ t.ioHistory = s.ioHistory :=
  ⟨rfl, State.x_congr rfl rfl, by constructor <;> rfl, by constructor <;> rfl, fun _ => rfl, rfl, rfl, rfl⟩

/-- Settles O51: the state after MRET, `mstatus` read bit by bit. -/
theorem mretReturns : Obligations.MretReturns := by
  intro s
  refine ⟨rfl, fun hp hmpp => ?legal, fun hp => ?illegal⟩
  case legal =>
    refine ⟨s.returnM, if_pos hp, rfl, mppPriv_level hmpp, fun k hk => ?_, frame_return s _ _ _⟩
    rw [State.returnM_mstatus, getLsbD_mstatusMret _ k hk]
    -- The law of `mstatusMret` tests the bits in the opposite order to R230.
    grind
  case illegal => exact trapsIllegal_of_raiseIllegal (if_neg hp)

/-- Settles O52: the state after SRET, `mstatus` read bit by bit. -/
theorem sretReturns : Obligations.SretReturns := by
  intro s
  refine ⟨rfl, fun hp => ?legal, fun hp => ?illegal⟩
  case legal =>
    refine ⟨s.returnS, if_pos ((sModeAllowed_iff s bitTSR).mpr hp), rfl, rfl, fun k hk => ?_, frame_return s _ _ _⟩
    rw [State.returnS_mstatus, getLsbD_mstatusSret _ k hk]
    -- The law of `mstatusSret` tests the bits in the opposite order to R231.
    grind
  case illegal => exact trapsIllegal_of_raiseIllegal (if_neg ((not_sModeAllowed_iff s bitTSR).mpr hp))

/-! ## SFENCE.VMA -/

/-- The fixed fields of the word of SFENCE.VMA, whose `rd` is 0 (30_encoding.md R120). -/
theorem coded_sfenceVma (rs1 rs2 : RegNum) : Coded (.sfenceVma rs1 rs2) 0x12000073 0xFE007FFF :=
  encR_masked_rd _ rs2 rs1 _ 0 _

/-- Settles O54: after the check of TVM it goes on. -/
theorem sfenceVmaGoesOn : Obligations.SfenceVmaGoesOn := by
  intro s rs1 rs2
  refine ⟨coded_sfenceVma rs1 rs2, fun hp => ?legal, fun hp => ?illegal⟩
  case legal =>
    exact ⟨s.retire, if_pos ((sModeAllowed_iff s bitTVM).mpr hp), fun _ => rfl, ⟨s.nextPc_toNat, rfl⟩,
      plain_retireTo s _⟩
  case illegal => exact trapsIllegal_of_raiseIllegal (if_neg ((not_sModeAllowed_iff s bitTVM).mpr hp))

/-! ## Waiting -/

/-- Settles O53: after the check of TW it sets the wait and goes on. -/
theorem wfiWaits : Obligations.WfiWaits := by
  intro s
  refine ⟨rfl, fun hp => ?legal, fun hp => ?illegal⟩
  case legal =>
    have hgoes : GoesOn s { s with wfiWait := true }.retire := ⟨s.nextPc_toNat, rfl⟩
    exact ⟨_, if_pos ((sModeAllowed_iff s bitTW).mpr hp), rfl, hgoes, State.x_congr rfl rfl, by constructor <;> rfl,
      by constructor <;> rfl, fun _ => rfl, rfl, rfl, rfl⟩
  case illegal => exact trapsIllegal_of_raiseIllegal (if_neg ((not_sModeAllowed_iff s bitTW).mpr hp))

/-- A waiting hart that does not wake idles (R232). -/
theorem step_of_waiting {s : State} (hwait : s.wfiWait = true) (hno : wakes s.sample = false) :
    step s = .next s.sample.idle := by
  obtain ⟨-, -, h⟩ | ⟨hwakes, -⟩ := step_cases s
  · exact h
  · simp [hwakes hwait] at hno

/-- A pending and enabled interrupt wakes the hart, taken or not (R232). -/
theorem wakes_of_pending {s : State} (h : s.mip &&& s.mie ≠ 0) : wakes s = true := by
  rw [wakes, bne_iff_ne.mpr h, Bool.true_or]

/-- Settles O12: the idle step changes what sampling does; a pending enabled interrupt ends the wait. -/
theorem waitingHartIdlesOrWakes : Obligations.WaitingHartIdlesOrWakes := by
  intro s hwait
  refine ⟨fun hno => ?idle, fun hpending => Scope.step_of_runs fun _ => wakes_of_pending hpending⟩
  case idle =>
    exact ⟨s.sample.idle, step_of_waiting hwait hno, hwait, rfl, rfl, rfl, State.x_congr rfl rfl, fun _ => rfl,
      by constructor <;> rfl, rfl, rfl, rfl⟩

end Sys2Proof.Proofs.Privileged
end

section
/-! PROOFS. The family `48_pseudo_and_calling_convention.md`: what MV, NOP and LI do through the instructions they stand for
(R242, R245). -/

namespace Sys2Proof.Proofs.PseudoInstructions

open Sys2Proof.Machine Sys2Proof.Claims Sys2Proof.Proofs.RegisterWrites Sys2Proof.Proofs.Congruences

/-! ## MV and NOP -/

theorem imm12_zero (s : State) : imm12 s 0 = 0#64 := by
  unfold imm12
  cases s.xlen <;> rfl

/-- Adding the immediate 0 copies the register (R242). -/
theorem writesRd_mv (s : State) (rd rs : RegNum) : WritesRd (Pseudo.mv rd rs) s rd (fun v => v = s.x rs) := by
  refine writesRd_of_writeAndRetire (v := s.x rs + imm12 s 0) rfl ?_
  rw [imm12_zero, BitVec.add_zero]
  exact s.narrow_x rs

theorem writesRd_nop (s : State) : WritesRd Pseudo.nop s 0#5 (fun _ => True) :=
  writesRd_of_writeAndRetire (v := s.x 0 + imm12 s 0) rfl trivial

/-! ## LI -/

/-- The upper part of the constant, rounded so that the signed lower part makes up the rest (R245). -/
def liUpper (imm : BitVec 32) : BitVec 20 := (imm + 0x800).extractLsb' 12 20

/-- The lower 12 bits of the constant, which ADDI reads as signed (R245). -/
def liLower (imm : BitVec 32) : BitVec 12 := imm.extractLsb' 0 12

theorem liUpper_toNat (imm : BitVec 32) : (liUpper imm).toNat = (imm.toNat + 2048) % 2 ^ 32 / 4096 := by
  rw [liUpper, BitVec.extractLsb'_toNat, BitVec.toNat_add, Nat.shiftRight_eq_div_pow]
  simp only [BitVec.ofNat_eq_ofNat, BitVec.toNat_ofNat]
  omega

theorem liLower_toInt (imm : BitVec 32) : (liLower imm).toInt = Int.bmod (imm.toNat % 4096 : Nat) 4096 := by
  rw [BitVec.toInt_eq_toNat_bmod, liLower, BitVec.extractLsb'_toNat, Nat.shiftRight_zero]

/-- The two parts add up to the constant modulo 2^32: what rounding adds to the upper part the sign of the lower part takes
away (R245). -/
theorem liUpper_add_liLower (imm : BitVec 32) :
    upper (liUpper imm) + (liLower imm).toInt ≡ imm.toNat [ZMOD 2 ^ 32] := by
  have himm := imm.isLt
  have hupper : upper (liUpper imm) ≡ (liUpper imm).toNat * 4096 [ZMOD 2 ^ 32] := Int.bmod_emod
  refine (hupper.add_right _).trans ?_
  rw [liUpper_toNat, liLower_toInt, Int.ModEq, Int.bmod_def]
  omega

/-- A wrapped integer is congruent to the integer modulo 2^32, which divides 2^XLEN. -/
theorem wrap_modEq (s : State) (k : Int) : (wrap s k : Int) ≡ k [ZMOD 2 ^ 32] := by
  have hpos : (modulus s : Int) ≠ 0 := by unfold modulus; positivity
  rw [wrap, Int.toNat_of_nonneg (Int.emod_nonneg k hpos)]
  exact (Int.mod_modEq k _).of_dvd (two_pow_dvd_modulus s)

/-- LUI and ADDI one after the other leave the constant in the low 32 bits (R245). -/
theorem li_low32 (s : State) {rd : RegNum} (imm : BitVec 32) (hrd : rd ≠ 0#5) :
    ∃ t u, exec (.lui rd (liUpper imm)) s = .next t ∧ exec (.addi rd rd (liLower imm)) t = .next u ∧
      (u.x rd).toNat % 2 ^ 32 = imm.toNat := by
  obtain ⟨-, -, hlui, -⟩ := Arithmetic.upperImmediates s rd (liUpper imm)
  obtain ⟨t, hexec, ht, -⟩ := hlui
  obtain ⟨-, -, -, -, -, haddi⟩ := Arithmetic.addAndSubWrap t rd rd rd (liLower imm)
  obtain ⟨u, hexec', hu, -⟩ := haddi
  refine ⟨t, u, hexec, hexec', ?_⟩
  have hsum : ((u.x rd).toNat : Int) ≡ imm.toNat [ZMOD 2 ^ 32] := by
    calc ((u.x rd).toNat : Int)
      _ ≡ (t.x rd).toNat + (liLower imm).toInt [ZMOD 2 ^ 32] := by rw [hu hrd]; exact wrap_modEq t _
      _ ≡ upper (liUpper imm) + (liLower imm).toInt [ZMOD 2 ^ 32] := by rw [ht hrd]; exact (wrap_modEq s _).add_right _
      _ ≡ imm.toNat [ZMOD 2 ^ 32] := liUpper_add_liLower imm
  have himm := imm.isLt
  rw [Int.ModEq] at hsum
  omega

/-- Settles O31: the laws of ADDI and LUI at the operands of the expansions. -/
theorem pseudoInstructions : Obligations.PseudoInstructions := by
  intro s rd rs imm
  refine ⟨writesRd_mv s rd rs, writesRd_nop s, fun hrd => ?_⟩
  obtain ⟨t, u, hlui, haddi, hlow⟩ := li_low32 s imm hrd
  exact ⟨t, u, rfl, hlui, haddi, hlow⟩

end Sys2Proof.Proofs.PseudoInstructions
end

section
/-! PROOFS. The family `60_exceptions.md`, part 2: interrupts. When one is takeable (R332), which one is taken (R333), that one
is taken in time, what taking it does (R320-R324), and the sampling before it (R331, R345, R346). -/

namespace Sys2Proof.Proofs.Interrupts

open Sys2Proof.Machine Sys2Proof.Claims Sys2Proof.Proofs.Scope Sys2Proof.Proofs.StepEffects
open Sys2Proof.Proofs.Exceptions Sys2Proof.Proofs.Privileged

/-! ## Trap entry -/

/-- Taking an interrupt is entry to the mode R321 names, whatever is held off. -/
theorem interrupted_takeInterrupt (s : State) (l : List (Interrupt × Nat)) (i : Interrupt) :
    Interrupted s ({ s with postponed := l }.takeInterrupt i) i := by
  unfold Interrupted
  obtain ⟨hd, ht⟩ | ⟨hd, ht⟩ := State.takeInterrupt_cases { s with postponed := l } i
  · have htarget : intTarget s i = .s := if_pos hd
    rw [ht, htarget]
    exact ⟨nofun, fun _ => entersS_enterS s l true 0 i.code_lt⟩
  · have htarget : intTarget s i = .m := if_neg (Bool.eq_false_iff.mp hd)
    rw [ht, htarget]
    exact ⟨fun _ => entersM_enterM s l true 0 i.code_lt, nofun⟩

/-- Settles O55: both traps are an entry to the mode R321 names. -/
theorem trapEntry : Obligations.TrapEntry := fun s e v i =>
  ⟨raised_takeException s s.postponed e v, interrupted_takeInterrupt s s.postponed i⟩

/-- Settles O11: the hart does not wait, and the interrupt choice comes before the fetch. -/
theorem stepTakesInterrupt : Obligations.StepTakesInterrupt := by
  intro s i hruns hi
  refine ⟨(awake s).interrupted i, ?_, interrupted_takeInterrupt (awake s) [] i⟩
  simp only [step_of_runs hruns, runActive, hi]

/-! ## When an interrupt is takeable -/

/-- Settles O56: the test of the enables, mode by mode, for an interrupt that is delegated and one that is not. -/
theorem takeableByMasks : Obligations.TakeableByMasks := by
  intro s i
  rw [takeable, Bool.and_eq_true, Bool.and_eq_true, Takeable, and_left_comm]
  refine and_congr_right' (and_congr_right' ?_)
  cases s.mideleg.getLsbD i.code with
  | false => cases s.priv <;> simp [Priv.level, bitMIE]
  | true => cases s.priv <;> simp [bitSIE]

/-- Settles O58: the machine comes out of reset in M-mode with MIE = 0, and sampling changes neither. -/
theorem noInterruptAfterReset : Obligations.NoInterruptAfterReset :=
  ⟨fun _ _ _ i => takeable_masked rfl BitVec.getLsbD_zero i, fun _ i hp hm => takeable_masked hp hm i⟩

/-! ## Which interrupt is taken -/

/-- Interrupt `i` comes before `j`: those for M-mode first, then by rank (60_exceptions.md R333). -/
def Before (s : State) (i j : Interrupt) : Prop :=
  (s.mideleg.getLsbD i.code = false ∧ s.mideleg.getLsbD j.code = true) ∨
    (s.mideleg.getLsbD i.code = s.mideleg.getLsbD j.code ∧ rank i < rank j)

theorem rank_increases : interruptOrder.Pairwise fun i j => rank i < rank j := by decide

/-- The takeable interrupts stand in the list by falling priority. -/
theorem takeableList_pairwise (s : State) : (takeableList s).Pairwise (Before s) := by
  unfold takeableList
  simp only [List.pairwise_append, List.pairwise_filter, List.mem_filter, Bool.and_eq_true, Bool.not_eq_true']
  refine ⟨rank_increases.imp ?_, rank_increases.imp ?_, ?_⟩
  · intro i j hrank hi hj
    exact .inr ⟨hi.2.trans hj.2.symm, hrank⟩
  · intro i j hrank hi hj
    exact .inr ⟨hi.2.trans hj.2.symm, hrank⟩
  · intro i hi j hj
    exact .inl ⟨hi.2.2, hj.2.2⟩

/-- Settles O57: the interrupt taken is the head of the list of the takeable ones. -/
theorem highestPriorityIsTaken : Obligations.HighestPriorityIsTaken := by
  intro s i hi
  obtain ⟨hhead, htakeable⟩ := interruptNow_some hi
  refine ⟨(takeableByMasks s i).mp htakeable, fun j hne hj => ?_⟩
  have hmem : j ∈ takeableList s := mem_takeableList.mpr ((takeableByMasks s j).mpr hj)
  have hsorted : (takeableList s).Pairwise (Before s) := takeableList_pairwise s
  obtain ⟨rest, hlist⟩ := List.head?_eq_some_iff.mp hhead
  rw [hlist] at hmem hsorted
  exact List.rel_of_pairwise_cons hsorted ((List.mem_cons.mp hmem).resolve_left hne)

/-! ## An interrupt is taken in time -/

/-- A takeable interrupt wakes a hart in WFI: it is pending and enabled (47_privileged.md R232). -/
theorem runs_of_takeable {s : State} {i : Interrupt} (h : takeable (awake s) i = true) : Runs s := by
  intro _
  obtain ⟨hmip, hmie, -⟩ := (takeableByMasks (awake s) i).mp h
  have hbit : (s.sample.mip &&& s.sample.mie).getLsbD i.code = true := by
    rw [BitVec.getLsbD_and, Bool.and_eq_true]
    exact ⟨hmip, hmie⟩
  refine wakes_of_pending fun hzero => ?_
  rw [hzero] at hbit
  exact Bool.false_ne_true (BitVec.getLsbD_zero.symm.trans hbit)

/-- For how many further steps `i` may be held off at the step from `s` (assumption log 9). -/
abbrev patience (s : State) (i : Interrupt) : Nat := delayLeft s.postponed s.nextDraw.interruptDelay i

theorem mem_delays {s : State} {i : Interrupt} (h : takeable (awake s) i = true) :
    (i, patience s i) ∈ delays (awake s) (takeableList (awake s)) :=
  List.mem_map_of_mem (mem_takeableList.mpr h)

/-- Patience at its end, an interrupt is taken. -/
theorem interruptNow_of_patience_zero {s : State} {i : Interrupt} (h : takeable (awake s) i = true)
    (h0 : patience s i = 0) : ∃ j, interruptNow (awake s) = some j := by
  have hany : ((delays (awake s) (takeableList (awake s))).any fun p => p.2 == 0) = true :=
    List.any_eq_true.mpr ⟨_, mem_delays h, beq_iff_eq.mpr h0⟩
  have hne : takeableList (awake s) ≠ [] := List.ne_nil_of_mem (mem_takeableList.mpr h)
  exact ⟨_, (if_pos hany).trans (List.head?_eq_some_head hne)⟩

/-- No instruction changes what is held off. -/
theorem effect_postponed {i : Instr} {s t : State} (he : Effect i s t) : t.postponed = s.postponed := by
  cases he with
  | trap e v hv => exact s.takeException_postponed e v
  | load a n rd v w u hr =>
    obtain ⟨-, r, -, -, ⟨-, -, rfl⟩ | ⟨-, -, rfl⟩⟩ := memRead_ok hr <;> rfl
  | store rs1 rs2 imm n u hi hw =>
    obtain ⟨-, r, -, -, ⟨-, rfl⟩ | ⟨-, rfl⟩⟩ := memWrite_ok hw <;> rfl
  | csrReads a c rd v hc => exact csrRetire_postponed c false _
  | csrWrites a c rd v new u hc hw => rw [csrRetire_postponed, State.setX_postponed, csrWrite_postponed hw]
  | _ => rfl

theorem fetchAndRun_postponed {s t : State} (h : fetchAndRun s = .next t) : t.postponed = s.postponed := by
  obtain ⟨-, hf⟩ | ⟨-, hf⟩ | ⟨-, hf⟩ | ⟨w, -, hf⟩ := fetchAndRun_cases s <;> rw [hf] at h
  · cases h
  · cases h
  · rw [raise_next h, State.takeException_postponed]
  obtain ⟨i, -, hw⟩ | ⟨e, -, hw⟩ := runWord_cases w s <;> rw [hw] at h
  · exact effect_postponed (effect_of_exec h)
  · rw [raise_next h, State.takeException_postponed]

/-- A step that takes no interrupt uses up one step of the patience of each takeable one. -/
theorem patience_step {s t : State} {i : Interrupt} (h : takeable (awake s) i = true)
    (hnone : interruptNow (awake s) = none) (hstep : step s = .next t) : patience t i = patience s i - 1 := by
  rw [step_of_runs (runs_of_takeable h), runActive_of_no_interrupt hnone] at hstep
  have hlookup : t.postponed.lookup i = some (patience s i) := by
    rw [fetchAndRun_postponed hstep]
    exact List.lookup_graph _ (mem_takeableList.mpr h)
  simp only [patience, delayLeft, hlookup]

/-- Settles O21, by induction on the number of steps: it falls by one at each step that takes no interrupt. -/
theorem takeableInterruptIsBounded : Obligations.TakeableInterruptIsBounded := by
  intro st i k hk hsteps htakeable
  change patience (st 0) i = k at hk
  induction k generalizing st with
  | zero => exact ⟨0, Nat.le_refl 0, interruptNow_of_patience_zero (htakeable 0 (Nat.le_refl 0)) hk⟩
  | succ k ih =>
    cases hnow : interruptNow (awake (st 0)) with
    | some j => exact ⟨0, Nat.zero_le _, j, hnow⟩
    | none =>
      have hnext : patience (st 1) i = k := by
        rw [patience_step (htakeable 0 (Nat.zero_le _)) hnow (hsteps 0 (Nat.succ_pos k)), hk, Nat.add_sub_cancel]
      obtain ⟨n, hn, htaken⟩ := ih (fun n => st (n + 1)) (fun n hn => hsteps (n + 1) (Nat.succ_lt_succ hn))
        (fun n hn => htakeable (n + 1) (Nat.succ_le_succ hn)) hnext
      exact ⟨n + 1, Nat.succ_le_succ hn, htaken⟩

/-! ## Sampling -/

/-- The drawn increment lies below 2^64 (60_exceptions.md R345). -/
theorem cycles_toNat (d : Draw) : (BitVec.ofNat 64 (d.extraCycles.val + 1)).toNat = d.extraCycles.val + 1 := by
  have := d.extraCycles.isLt
  rw [BitVec.toNat_ofNat, Nat.mod_eq_of_lt (by omega)]

theorem mcycle_sample_toNat (s : State) :
    s.sample.mcycle.toNat = (s.mcycle.toNat + (s.nextDraw.extraCycles.val + 1)) % 2 ^ 64 := by
  have hsum : s.sample.mcycle = s.mcycle + BitVec.ofNat 64 (s.nextDraw.extraCycles.val + 1) := rfl
  rw [hsum, BitVec.toNat_add, cycles_toNat]

/-- `mcycle` never stands still: no increment is a multiple of 2^64 (60_exceptions.md R345). -/
theorem mcycle_sample_ne (s : State) : s.sample.mcycle ≠ s.mcycle := by
  intro h
  have hsum := mcycle_sample_toNat s
  have hold := s.mcycle.isLt
  have hinc := s.nextDraw.extraCycles.isLt
  rw [h] at hsum
  omega

/-- Settles O13: the two counters as numbers; the rest is what the sampled state is built of. -/
theorem samplingAdvancesCounters : Obligations.SamplingAdvancesCounters := by
  intro s
  have hmtime : s.sample.ext.mtime.toNat = (s.ext.mtime.toNat + s.nextDraw.mtimeAdvance.toNat) % 2 ^ 64 :=
    BitVec.toNat_add _ _
  have hcontrol : SameControl { s with mcycle := s.sample.mcycle } s.sample := by constructor <;> rfl
  exact ⟨mcycle_sample_toNat s, mcycle_sample_ne s, hmtime, rfl, rfl, rfl, rfl, hcontrol, rfl, State.x_congr rfl rfl,
    fun _ => rfl, rfl, rfl, rfl, rfl, rfl, rfl⟩

end Sys2Proof.Proofs.Interrupts
end
